-- ==== Sys2Proof/Word.lean ====
section
/-! DEFINITION. The words of the block: the widths the spec gives its bytes, halfwords, data fields,
operation words and bus addresses (00_scope.md R9; 30_encoding.md R80, R85, R88). -/

namespace Sys2Proof

/-- A byte: 8 bits (R9). -/
abbrev Byte := BitVec 8

/-- A halfword: 16 bits (R9); a raw register value or a bus command. -/
abbrev Half := BitVec 16

/-- The `data` field of a response and the scaled reading registers: 32 bits (R6, R85). -/
abbrev Data := BitVec 32

/-- An operation word on the operation port: 24 bits (R80). -/
abbrev OpWord := BitVec 24

/-- A 7-bit peripheral address (R88). -/
abbrev Addr7 := BitVec 7

end Sys2Proof
end

