-- ==== Sys2Proof/Syntax.lean ====
section
/-! DEFINITION. The operations of the block (30_encoding.md R82) and the two bus commands it sends
(R87), one constructor per row of the opcode table, and the word that carries each. -/

namespace Sys2Proof

/-- One constructor per row of the opcode table. -/
inductive Instr where
  /-- `CRC.INIT` (R114). -/
  | crcInit
  /-- `CRC.BYTE b` (R115). -/
  | crcByte (b : Byte)
  /-- `CRC.READ` (R116). -/
  | crcRead
  /-- `CNV.CO2 raw` (R145). -/
  | cnvCo2 (raw : Half)
  /-- `CNV.TEMP raw` (R146). -/
  | cnvTemp (raw : Half)
  /-- `CNV.HUMI raw` (R147). -/
  | cnvHumi (raw : Half)
  /-- `SES.START` (R162). -/
  | sesStart
  /-- `SES.READ` (R163). -/
  | sesRead
  /-- `RD r`, with `r = imm[7:0]`; legal values 0 to 3 (R83, R190). -/
  | rd (r : Byte)
  /-- The bus command "start periodic measurement", `0x21B1` (R87). Not an operation word: it goes out
  on the transport port. -/
  | busStartPeriodic
  /-- The bus command "read raw measurement", `0xEC05` (R87). Not an operation word. -/
  | busReadMeasurement
  deriving DecidableEq, Repr

/-- A word at one of the two ports whose words the opcode table encodes. -/
inductive PortWord where
  /-- A 24-bit operation word on the operation port (R80). -/
  | operation (w : OpWord)
  /-- A 16-bit command on the transport port (R87). -/
  | busCommand (c : Half)
  deriving DecidableEq, Repr

/-- The mnemonic of the row, as the spec's assembler syntax writes it (R90). -/
def Instr.mnemonic : Instr → String
  | .crcInit => "CRC.INIT"
  | .crcByte _ => "CRC.BYTE"
  | .crcRead => "CRC.READ"
  | .cnvCo2 _ => "CNV.CO2"
  | .cnvTemp _ => "CNV.TEMP"
  | .cnvHumi _ => "CNV.HUMI"
  | .sesStart => "SES.START"
  | .sesRead => "SES.READ"
  | .rd _ => "RD"
  | .busStartPeriodic => "BUS.START_PERIODIC"
  | .busReadMeasurement => "BUS.READ_MEASUREMENT"

/-- A line of the spec's assembler syntax: the mnemonic, and the operand as a decimal numeral (R90). -/
def Instr.assembly (i : Instr) : String :=
  match i with
  | .crcByte b => i.mnemonic ++ " " ++ toString b.toNat
  | .cnvCo2 raw | .cnvTemp raw | .cnvHumi raw => i.mnemonic ++ " " ++ toString raw.toNat
  | .rd r => i.mnemonic ++ " " ++ toString r.toNat
  | .crcInit | .crcRead | .sesStart | .sesRead | .busStartPeriodic | .busReadMeasurement => i.mnemonic

end Sys2Proof
end

