-- ==== Sys2Proof/WellFormed.lean ====
section
/-! DEFINITION. Which instructions have an encoding: every operand is of its field's width by its type,
and `RD` names one of the four registers (30_encoding.md R83, R84; 43_register_read.md R191). -/

namespace Sys2Proof

/-- `RD` addresses registers 0 to 3; "No other number is assigned" (R191). Every other operand is legal
at every value (R83). -/
def Instr.wellFormed : Instr → Bool
  | .rd r => r.toNat ≤ 3
  | .crcInit | .crcByte _ | .crcRead | .cnvCo2 _ | .cnvTemp _ | .cnvHumi _
  | .sesStart | .sesRead | .busStartPeriodic | .busReadMeasurement => true

end Sys2Proof
end

