-- ==== Sys2Proof/Decode.lean ====
section
/-! DEFINITION. The decoder, total on every word of either port, and after it the encoder
(30_encoding.md R80 to R84, R87, R93). -/

namespace Sys2Proof

/-! ## Fields of an operation word (R80) -/

/-- `opc = w[23:16]`. -/
def opcField (w : OpWord) : Byte := w.extractLsb' 16 8

/-- `imm = w[15:0]`. -/
def immField (w : OpWord) : Half := w.extractLsb' 0 16

/-- `imm[15:8]`. -/
def immHigh (w : OpWord) : Byte := w.extractLsb' 8 8

/-- `imm[7:0]`. -/
def immLow (w : OpWord) : Byte := w.extractLsb' 0 8

/-! ## The three formats (R81) -/

/-- Format N: `imm` must be `0x0000`. -/
def formatN (i : Instr) (w : OpWord) : Option Instr :=
  if immField w = 0 then some i else none

/-- Format B: `imm[15:8]` must be `0x00`; `imm[7:0]` is the operand. -/
def formatB (f : Byte → Instr) (w : OpWord) : Option Instr :=
  if immHigh w = 0 then some (f (immLow w)) else none

/-- Format H: all of `imm` is the operand. -/
def formatH (f : Half → Instr) (w : OpWord) : Option Instr :=
  some (f (immField w))

/-! ## The decoder -/

/-- The operation an operation word stands for; `none` is the verdict "illegal" (R82, R84). -/
def decodeOperation (w : OpWord) : Option Instr :=
  if opcField w = 0x01 then formatN .crcInit w
  else if opcField w = 0x02 then formatB .crcByte w
  else if opcField w = 0x03 then formatN .crcRead w
  else if opcField w = 0x10 then formatH .cnvCo2 w
  else if opcField w = 0x11 then formatH .cnvTemp w
  else if opcField w = 0x12 then formatH .cnvHumi w
  else if opcField w = 0x20 then formatN .sesStart w
  else if opcField w = 0x21 then formatN .sesRead w
  else if opcField w = 0x30 then (formatB .rd w).filter Instr.wellFormed
  else none

/-- The command a 16-bit word of the transport port stands for: "These are the only two commands the
block ever sends" (R87). -/
def decodeBusCommand (c : Half) : Option Instr :=
  if c = 0x21B1 then some .busStartPeriodic
  else if c = 0xEC05 then some .busReadMeasurement
  else none

/-- The decoder, total on every word. -/
def decode : PortWord → Option Instr
  | .operation w => decodeOperation w
  | .busCommand c => decodeBusCommand c

/-! ## The opcode map as match and mask (R82) -/

/-- One row of R82's match-and-mask table: a word selects the row when `w & mask = match`. -/
structure OpcodeRow where
  mnemonic : String
  pattern : OpWord
  mask : OpWord
  deriving DecidableEq, Repr

/-- R82's table, row by row. -/
def opcodeMap : List OpcodeRow :=
  [ ⟨"CRC.INIT",  0x010000, 0xFFFFFF⟩, ⟨"CRC.BYTE", 0x020000, 0xFFFF00⟩, ⟨"CRC.READ", 0x030000, 0xFFFFFF⟩,
    ⟨"CNV.CO2",   0x100000, 0xFF0000⟩, ⟨"CNV.TEMP", 0x110000, 0xFF0000⟩, ⟨"CNV.HUMI", 0x120000, 0xFF0000⟩,
    ⟨"SES.START", 0x200000, 0xFFFFFF⟩, ⟨"SES.READ", 0x210000, 0xFFFFFF⟩, ⟨"RD",       0x300000, 0xFFFFFC⟩ ]

/-- The word selects the row. -/
def OpcodeRow.selectedBy (row : OpcodeRow) (w : OpWord) : Bool := w &&& row.mask == row.pattern

/-! ## The encoder -/

/-- The operation word with these two fields, `{opc, imm}` (R80). -/
def opWord (opc : Byte) (imm : Half) : OpWord := opc ++ imm

/-- The word of an instruction, from the encodings of R81, R82 and R87. -/
def encode : Instr → PortWord
  | .crcInit => .operation (opWord 0x01 0)
  | .crcByte b => .operation (opWord 0x02 (b.zeroExtend 16))
  | .crcRead => .operation (opWord 0x03 0)
  | .cnvCo2 raw => .operation (opWord 0x10 raw)
  | .cnvTemp raw => .operation (opWord 0x11 raw)
  | .cnvHumi raw => .operation (opWord 0x12 raw)
  | .sesStart => .operation (opWord 0x20 0)
  | .sesRead => .operation (opWord 0x21 0)
  | .rd r => .operation (opWord 0x30 (r.zeroExtend 16))
  | .busStartPeriodic => .busCommand 0x21B1
  | .busReadMeasurement => .busCommand 0xEC05

/-! ## Words as the opcode table numbers them -/

/-- The port word whose bits are `w`: the table's 16-bit rows are bus commands, its 24-bit rows operation
words. -/
def PortWord.ofTable (nbits w : Nat) : PortWord :=
  if nbits = 16 then .busCommand (BitVec.ofNat 16 w) else .operation (BitVec.ofNat 24 w)

/-- The instruction the decoder reads from a table word of `nbits` bits. -/
def decodeTableWord (nbits w : Nat) : Option Instr :=
  if (nbits = 16 ∨ nbits = 24) ∧ w < 2 ^ nbits then decode (PortWord.ofTable nbits w) else none

end Sys2Proof
end

