-- ==== Sys2Proof/Config.lean ====
section
/-! DEFINITION. The free values: what the spec leaves to the environment or calls "any value"
(93_implementation_defined.md U4, U7, U8). Each is an opaque constant applied to a counter of State,
so that nothing can be proved about the value it gives. The parameters the spec FIXES stand in
Machine/Params.lean. -/

namespace Sys2Proof

/-- What a blocking transport call comes to (42_session.md R160, R169): it returns an answer, or it
never returns. -/
inductive Reply (α : Type) where
  /-- The call returned with this answer. -/
  | returns (answer : α)
  /-- The call never returned (R169). -/
  | never
  deriving DecidableEq, Repr, Inhabited

namespace Config

/-- The reply to a `TX` call for which State holds no scripted reply: any value (U8). -/
opaque txReply : Nat → Reply Bool

/-- The reply to a `REQ` call for which State holds no scripted reply: any natural number, or none (U8, D16). -/
opaque reqReply : Nat → Reply Nat

/-- The reply to an `RX` call for which State holds no scripted reply: any byte, or none (U8). -/
opaque rxReply : Nat → Reply Byte

/-- The `st` field of a refused response: any value (R85, U4). -/
opaque refusedSt : Nat → BitVec 2

/-- The `data` field of a refused response: any value (R85, U4). -/
opaque refusedData : Nat → Data

end Config

end Sys2Proof
end

