-- ==== Sys2Proof/Machine/State.lean ====
section
/-! DEFINITION. The state of the block (10_state.md R20), the record of what it did on its two ports
(R33; 30_encoding.md R85), what its environment does next (00_scope.md R7, R8), and the state after
reset (R35). All of it is plain data. -/

namespace Sys2Proof.Machine

/-- The session state `MEAS` (R23): 0 is Idle, 1 is Measuring. -/
inductive Session where
  /-- `MEAS = 0`: before a start command was accepted. -/
  | idle
  /-- `MEAS = 1`: after a start command was accepted. -/
  | measuring
  deriving DecidableEq, Repr

/-- The three reading registers (R24), which are always written together (R25). -/
structure Reading where
  /-- `CO2_PPM`, unsigned, in ppm. -/
  co2Ppm : Half
  /-- `TEMP_Q16`, two's complement: 65536 times the temperature in degrees Celsius. -/
  tempQ16 : Data
  /-- `HUMI_Q16`, unsigned: 65536 times the relative humidity in percent. -/
  humiQ16 : Data
  deriving DecidableEq, Repr

/-- One response of the response port (R85): accepted or refused, status code, result value. -/
structure Response where
  acc : Bool
  st : BitVec 2
  data : Data
  deriving DecidableEq, Repr

/-- The four statuses (R86). -/
inductive Status where
  | success
  | transmitFailure
  | frameLengthError
  | checksumError
  deriving DecidableEq, Repr

/-- The three reported failures (60_exceptions.md R200): the statuses other than Success (R11). -/
inductive Failure where
  | transmitFailure
  | frameLengthError
  | checksumError
  deriving DecidableEq, Repr

/-- The three sticky fault flags, each set by one kind of refusal (R27, R200). -/
inductive FaultFlag where
  /-- An illegal operation word was refused (R204). -/
  | illop
  /-- `SES.READ` was refused in Idle (R205). -/
  | pviol
  /-- A reading register was read while it held no value (R206). -/
  | noval
  deriving DecidableEq, Repr

/-- A call of the block on the transport port (R160). -/
inductive TransportCall where
  | tx (addr : Addr7) (bytes : List Byte)
  | req (addr : Addr7) (count : Nat)
  | rx
  deriving DecidableEq, Repr

/-- One event of the transport trace: a call together with its answer (R33, R160). -/
inductive TransportEvent where
  | tx (addr : Addr7) (bytes : List Byte) (ok : Bool)
  | req (addr : Addr7) (count n : Nat)
  | rx (b : Byte)
  deriving DecidableEq, Repr

/-- What the outside world does to the block next (R32, R230). -/
inductive HostInput where
  /-- Present a word: an operation word on the operation port (R7). A bus command issued by itself is the
  model's way to run R87's rows alone (DESIGN CHOICE, safe for claims about operation words: log 10). -/
  | issue (p : PortWord)
  /-- Apply the reset event (R230). -/
  | reset
  deriving DecidableEq, Repr

/-- The machine's state. The first six fields are the spec's (R20), `trace` is the record of R33, the
rest are the model's own: the responses given, the call in progress, and the environment. -/
structure State where
  /-- `CRC`, the accumulator (R22). -/
  crc : Byte
  /-- `MEAS`, the session state (R23). -/
  meas : Session
  /-- `CO2_PPM`, `TEMP_Q16`, `HUMI_Q16`, and in its presence `VALID` (R24 to R26): while `VALID = 0` the
  registers "hold no value", and a model "must not give them a value" (DEDUCED, safe: log 6). -/
  reading : Option Reading
  /-- `ILLOP`, sticky (R27). -/
  illop : Bool
  /-- `PVIOL`, sticky (R27). -/
  pviol : Bool
  /-- `NOVAL`, sticky (R27). -/
  noval : Bool
  /-- `TR`, the transport trace, oldest event first (R33). -/
  trace : List TransportEvent
  /-- The responses given since reset, oldest first (R85; DESIGN CHOICE, safe: log 8). -/
  responses : List Response
  /-- The transport call that has not returned: the operation in progress has no response yet (R169;
  DESIGN CHOICE, safe: log 3). -/
  pending : Option TransportCall
  /-- What the host does next, first first (R7; DESIGN CHOICE, safe: log 1). -/
  inputs : List HostInput
  /-- The transport's next replies to `TX`; when the list is empty the reply is a free value (log 2). -/
  txScript : List (Reply Bool)
  /-- The transport's next replies to `REQ`; when empty, a free value (log 2). -/
  reqScript : List (Reply Nat)
  /-- The transport's next replies to `RX`; when empty, a free value (log 2). -/
  rxScript : List (Reply Byte)
  /-- How many free values were drawn (log 5). -/
  draws : Nat
  deriving DecidableEq, Repr

/-- Why the machine stops. -/
inductive Fault where
  /-- Raised by `step` when the host presents a word while the operation before it has no response:
  "What happens if it does is not specified" (70_reset_and_hazards.md R234, U6; DESIGN CHOICE, safe: log 4). -/
  | wordBeforeResponse
  deriving DecidableEq, Repr

/-- Why the model gives a word no meaning. -/
inductive Refusal where
  /-- Raised by `exec` for an instruction without a meaning in the model; safe. -/
  | notModelled (mnemonic : String)
  /-- Raised by `step` for a 16-bit bus command other than the two of R87, "the only two commands the
  block ever sends" (DESIGN CHOICE, safe: log 11). -/
  | unknownBusCommand (code : Half)
  deriving DecidableEq, Repr

/-- What a step answers. -/
abbrev Result := Host.Outcome State Fault Refusal

/-- `VALID`: the reading registers hold a validated reading (R26). -/
def State.valid (s : State) : Bool := s.reading.isSome

/-- The state after reset (R35), with nothing recorded and nothing to do. -/
def State.reset : State where
  crc := 0xFF
  meas := .idle
  reading := none
  illop := false
  pviol := false
  noval := false
  trace := []
  responses := []
  pending := none
  inputs := []
  txScript := []
  reqScript := []
  rxScript := []
  draws := 0

end Sys2Proof.Machine
end

