-- ==== Sys2Proof/Machine/Flags.lean ====
section
/-! DEFINITION. The status codes (30_encoding.md R86), the sticky fault flags and the STATUS view
(10_state.md R27, R28). -/

namespace Sys2Proof.Machine

/-- The numeric code of a status (R86). -/
def Status.code : Status → BitVec 2
  | .success => 0
  | .transmitFailure => 1
  | .frameLengthError => 2
  | .checksumError => 3

/-- A failure is a status other than Success (R11). -/
def Failure.status : Failure → Status
  | .transmitFailure => .transmitFailure
  | .frameLengthError => .frameLengthError
  | .checksumError => .checksumError

/-- A bit as a 32-bit value. -/
def bit (b : Bool) : Data := if b then 1 else 0

/-- `MEAS` as a bit (R23). -/
def Session.bit : Session → Data
  | .idle => 0
  | .measuring => 1

/-- A refusal sets its flag to 1; no operation clears one (R27). -/
def State.setFlag (f : FaultFlag) (s : State) : State :=
  match f with
  | .illop => { s with illop := true }
  | .pviol => { s with pviol := true }
  | .noval => { s with noval := true }

/-- `STATUS`: "`data = (NOVAL << 6) | (PVIOL << 5) | (ILLOP << 4) | (VALID << 1) | MEAS`" (R28). -/
def State.status (s : State) : Data :=
  (bit s.noval <<< 6) ||| (bit s.pviol <<< 5) ||| (bit s.illop <<< 4) ||| (bit s.valid <<< 1) ||| s.meas.bit

end Sys2Proof.Machine
end

