-- ==== Sys2Proof/Machine/Operands.lean ====
section
/-! DEFINITION. The operand forms that name something: the register numbers of `RD`
(43_register_read.md R191) and the two bytes of a bus command (20_memory.md R63). -/

namespace Sys2Proof.Machine

/-- The four registers `RD` can read (R191). -/
inductive RegName where
  | status
  | co2Ppm
  | tempQ16
  | humiQ16
  deriving DecidableEq, Repr

/-- The register with this number; "No other number is assigned" (R191). -/
def regOfNumber (r : Byte) : Option RegName :=
  if r = 0 then some .status
  else if r = 1 then some .co2Ppm
  else if r = 2 then some .tempQ16
  else if r = 3 then some .humiQ16
  else none

/-- "A command `c` is the byte list `[c[15:8], c[7:0]]`" (R63). -/
def commandBytes (c : Half) : List Byte := [c.extractLsb' 8 8, c.extractLsb' 0 8]

end Sys2Proof.Machine
end

