-- ==== Sys2Proof/Machine/Params.lean ====
section
/-! DEFINITION. The parameters the source fixes (00_scope.md R5): "None is configurable". They are
constants of the hardware and not registers (10_state.md R34). -/

namespace Sys2Proof.Machine

/-- `CRC_POLY`: x^8+x^5+x^4+1, the x^8 term implicit. -/
def crcPoly : Byte := 0x31

/-- `CRC_INIT`: the initial accumulator value. -/
def crcInitial : Byte := 0xFF

/-- `FRAME_LEN`: the number of bytes requested and drained. -/
def frameLen : Nat := 9

/-- `PERIPH_ADDR`: "fixed, 7-bit addressing" (R88). -/
def periphAddr : Addr7 := 0x62

/-- `CMD_START`: start periodic measurement (R87). -/
def cmdStart : Half := 0x21B1

/-- `CMD_READ`: read raw measurement (R87). -/
def cmdRead : Half := 0xEC05

/-- `T_SPAN`: temperature span in degrees Celsius. -/
def tempSpan : Int := 175

/-- `T_OFFSET` times `SCALE_DIV`: −45 · 65536 (41_parser_convert.md R136). -/
def tempOffsetQ16 : Int := -2949120

/-- `H_SPAN`: humidity span in percent. -/
def humiSpan : Nat := 100

/-- `T_SETTLE_MIN` in milliseconds: a duty of the host, which no step reads (70_reset_and_hazards.md R233). -/
def settleMinMs : Nat := 10

end Sys2Proof.Machine
end

