-- ==== Sys2Proof/Machine/Ops.lean ====
section
/-! DEFINITION. The named operations the meanings share: ending an operation with a response, a reported
failure or a refusal (60_exceptions.md R209), the transport calls (42_session.md R160), the reset event
(70_reset_and_hazards.md R230), and taking the host's next input (00_scope.md R7). -/

namespace Sys2Proof.Machine

/-! ## Ending an operation -/

/-- `respond(st, data)`: the operation ends with `acc = 1` (R10, R85). -/
def State.respond (st : Status) (data : Data) (s : State) : State :=
  { s with responses := s.responses ++ [⟨true, st.code, data⟩] }

/-- `raise <Failure>`: the operation ends with `acc = 1`, the failure's code and `data = 0`; it writes no
register (R209). This and `refuse` are the block's whole way of taking an exception: nothing is saved and
control goes nowhere, so there is no return from one (R210). -/
def State.raise (f : Failure) (s : State) : State := s.respond f.status 0

/-- `refuse <FLAG>`: the operation ends with `acc = 0`, and the one sticky flag is set (R10, R209). The
`st` and `data` of the response "carry no information" (R85): free values (log 5). -/
def State.refuse (f : FaultFlag) (s : State) : State :=
  { s.setFlag f with
    responses := s.responses ++ [⟨false, Config.refusedSt s.draws, Config.refusedData s.draws⟩]
    draws := s.draws + 1 }

/-! ## The transport port (R160)

Each call takes the next scripted reply, or draws a free one when the script is empty (log 2). A call that
returned appends its event to the trace (R33); one that never returns leaves the block waiting (R169). -/

/-- The reply the next `TX` gets. -/
def State.txReply (s : State) : Reply Bool :=
  match s.txScript with
  | [] => Config.txReply s.draws
  | r :: _ => r

/-- The reply the next `REQ` gets. -/
def State.reqReply (s : State) : Reply Nat :=
  match s.reqScript with
  | [] => Config.reqReply s.draws
  | r :: _ => r

/-- The reply the next `RX` gets. -/
def State.rxReply (s : State) : Reply Byte :=
  match s.rxScript with
  | [] => Config.rxReply s.draws
  | r :: _ => r

/-- The counter of free values, after one was drawn if a script was empty. -/
def drawnIf (scriptEmpty : Bool) (draws : Nat) : Nat := if scriptEmpty then draws + 1 else draws

/-- The environment after the reply to a `TX` was taken. -/
def State.spendTx (s : State) : State :=
  { s with txScript := s.txScript.tail, draws := drawnIf s.txScript.isEmpty s.draws }

/-- The environment after the reply to a `REQ` was taken. -/
def State.spendReq (s : State) : State :=
  { s with reqScript := s.reqScript.tail, draws := drawnIf s.reqScript.isEmpty s.draws }

/-- The environment after the reply to an `RX` was taken. -/
def State.spendRx (s : State) : State :=
  { s with rxScript := s.rxScript.tail, draws := drawnIf s.rxScript.isEmpty s.draws }

/-- The environment after the replies to `k` `RX` calls were taken. -/
def State.spendRxs : Nat → State → State
  | 0, s => s
  | k + 1, s => (State.spendRxs k s).spendRx

/-- What comes back to the block from a transport call: its answer, or nothing. -/
inductive Call (α : Type) where
  /-- The call returned. -/
  | returned (answer : α) (s : State)
  /-- The call never returned; the block waits in it (R169). -/
  | hung (s : State)

/-- Append an event to the transport trace (R33). -/
def State.record (e : TransportEvent) (s : State) : State := { s with trace := s.trace ++ [e] }

/-- The block waits for this call to return. -/
def State.waitFor (c : TransportCall) (s : State) : State := { s with pending := some c }

/-- `TX(addr7, bytes)`. -/
def tx (addr : Addr7) (bytes : List Byte) (s : State) : Call Bool :=
  match s.txReply with
  | .returns ok => .returned ok (s.spendTx.record (.tx addr bytes ok))
  | .never => .hung (s.spendTx.waitFor (.tx addr bytes))

/-- `REQ(addr7, count)`. -/
def req (addr : Addr7) (count : Nat) (s : State) : Call Nat :=
  match s.reqReply with
  | .returns n => .returned n (s.spendReq.record (.req addr count n))
  | .never => .hung (s.spendReq.waitFor (.req addr count))

/-- `RX()`. -/
def rx (s : State) : Call Byte :=
  match s.rxReply with
  | .returns b => .returned b (s.spendRx.record (.rx b))
  | .never => .hung (s.spendRx.waitFor .rx)

/-- Take `k` bytes one after another, the first to arrive at offset 0 (20_memory.md R61, R66): "Drain
exactly 9 bytes into the frame buffer" (R163 step 4). -/
def drain : (k : Nat) → State → Call (Vector Byte k)
  | 0, s => .returned #v[] s
  | k + 1, s =>
    match drain k s with
    | .hung s' => .hung s'
    | .returned bytes s' =>
      match rx s' with
      | .hung s'' => .hung s''
      | .returned b s'' => .returned (bytes.push b) s''

/-- One bus command on the transport port: "one transport transmit of exactly two bytes, high byte first"
(30_encoding.md R87), to the peripheral address (R88). -/
def sendCommand (c : Half) (s : State) : Call Bool := tx periphAddr (commandBytes c) s

/-! ## Reset (R230) -/

/-- The reset event: every piece of state goes to its value of R35, a call in progress is abandoned
(R242), and "Reset makes no transport call". What the host does next, the transport's replies and the
counter of free values are not the block's and stay (DESIGN CHOICE, safe: log 8). -/
def State.applyReset (s : State) : State :=
  { State.reset with
    inputs := s.inputs.tail
    txScript := s.txScript
    reqScript := s.reqScript
    rxScript := s.rxScript
    draws := s.draws }

/-! ## The host's next input (R7) -/

/-- What a step has to do. -/
inductive Todo where
  /-- Nothing: the block is quiescent (R240). -/
  | quiet
  /-- Apply reset. -/
  | reset
  /-- A word came before the response to the one before it (R234). -/
  | early
  /-- Run this word in this state. -/
  | run (p : PortWord) (s : State)

/-- Take the host's next input. The block "accepts the next operation only after it has answered" (R7). -/
def State.takeInput (s : State) : Todo :=
  match s.inputs, s.pending with
  | [], _ => .quiet
  | .reset :: _, _ => .reset
  | .issue _ :: _, some _ => .early
  | .issue p :: rest, none => .run p { s with inputs := rest }

/-- A word that stands for no instruction: an illegal operation word is refused with `ILLOP` (R84, R204);
a 16-bit command the block never sends has no meaning (log 11). -/
def rejectWord (p : PortWord) (s : State) : Result :=
  match p with
  | .operation _ => .next (s.refuse .illop)
  | .busCommand c => .refused (.unknownBusCommand c)

/-- Put a word where the next step takes it: first in the host's list, with no call in progress (log 1). -/
def State.present (p : PortWord) (s : State) : State :=
  { s with inputs := .issue p :: s.inputs, pending := none }

end Sys2Proof.Machine
end

