-- ==== Sys2Proof/Machine/BusCommand.lean ====
section
/-! DEFINITION. The two bus commands alone (30_encoding.md R87): the one transport transmit that
`SES.START` and `SES.READ` step 1 make. No register of the block is read or written and no response is
given: a bus command is "Not an operation word of the block" (opcode_table.json; log 10). -/

namespace Sys2Proof.Machine

/-- Transmit a command and do nothing about the answer: it is in the trace. -/
def transmitAlone (c : Half) (s : State) : State :=
  match sendCommand c s with
  | .hung s' => s'
  | .returned _ s' => s'

/-- The meaning of `BUS.START_PERIODIC`. -/
def execBusStartPeriodic (s : State) : Result := .next (transmitAlone cmdStart s)

/-- The meaning of `BUS.READ_MEASUREMENT`. -/
def execBusReadMeasurement (s : State) : Result := .next (transmitAlone cmdRead s)

end Sys2Proof.Machine
end

