-- ==== Sys2Proof/Machine/Converter.lean ====
section
/-! DEFINITION. The fixed-point converter (41_parser_convert.md R135 to R137) and `CNV.CO2`, `CNV.TEMP`,
`CNV.HUMI` (R145 to R147). -/

namespace Sys2Proof.Machine

/-- `conv_co2(raw) := raw` (R135). -/
def convCo2 (raw : Half) : Half := raw

/-- `conv_temp_q16(raw) := 175 × raw − 2949120`, on mathematical integers (R136). -/
def convTempQ16 (raw : Half) : Int := tempSpan * raw.toNat + tempOffsetQ16

/-- `conv_humi_q16(raw) := 100 × raw`, on mathematical integers (R137). -/
def convHumiQ16 (raw : Half) : Nat := humiSpan * raw.toNat

/-- `trunc_32(conv_temp_q16(raw))`: the 32-bit two's-complement pattern (R136, R146). -/
def tempQ16 (raw : Half) : Data := BitVec.ofInt 32 (convTempQ16 raw)

/-- `zext_32(conv_humi_q16(raw))` (R137, R147). -/
def humiQ16 (raw : Half) : Data := BitVec.ofNat 32 (convHumiQ16 raw)

/-- `CNV.CO2 raw` (R145). -/
def execCnvCo2 (raw : Half) (s : State) : Result := .next (s.respond .success ((convCo2 raw).zeroExtend 32))

/-- `CNV.TEMP raw` (R146). -/
def execCnvTemp (raw : Half) (s : State) : Result := .next (s.respond .success (tempQ16 raw))

/-- `CNV.HUMI raw` (R147). -/
def execCnvHumi (raw : Half) (s : State) : Result := .next (s.respond .success (humiQ16 raw))

end Sys2Proof.Machine
end

