-- ==== Sys2Proof/Machine/Crc.lean ====
section
/-! DEFINITION. The CRC unit (40_crc.md): `crc8_update`, `crc8`, and `CRC.INIT`, `CRC.BYTE`, `CRC.READ`. -/

namespace Sys2Proof.Machine

/-- One shift iteration: "if the top bit of the accumulator is set, shift left by one and XOR with the
polynomial, else shift left by one" (R110). -/
def crcShift (a : Byte) : Byte := if a.msb then (a <<< 1) ^^^ crcPoly else a <<< 1

/-- `n` shift iterations. -/
def crcShifts : Nat → Byte → Byte
  | 0, a => a
  | n + 1, a => crcShifts n (crcShift a)

/-- `crc8_update(acc, b)` (R110). -/
def crc8Update (acc b : Byte) : Byte := crcShifts 8 (acc ^^^ b)

/-- `crc8(bytes)`: the pure function, from the initial value, in increasing index order (R111). -/
def crc8 (bytes : List Byte) : Byte := bytes.foldl crc8Update crcInitial

/-- `CRC.INIT` (R114). -/
def execCrcInit (s : State) : Result := .next (State.respond .success 0 { s with crc := crcInitial })

/-- `CRC.BYTE b` (R115). -/
def execCrcByte (b : Byte) (s : State) : Result :=
  .next (State.respond .success 0 { s with crc := crc8Update s.crc b })

/-- `CRC.READ` (R116): `respond(0, zext_32(CRC))`. -/
def execCrcRead (s : State) : Result := .next (s.respond .success (s.crc.zeroExtend 32))

end Sys2Proof.Machine
end

