-- ==== Sys2Proof/Machine/RegisterRead.lean ====
section
/-! DEFINITION. `RD`: the register read (43_register_read.md R190 to R192). -/

namespace Sys2Proof.Machine

/-- Read a reading register: while `VALID = 0` it holds no value and the read is refused (R192). -/
def readReading (select : Reading → Data) (s : State) : State :=
  match s.reading with
  | none => s.refuse .noval
  | some r => s.respond .success (select r)

/-- The register named by `RD`'s operand, read (R190). A number above 3 is no legal operand: its word is
illegal and is refused with `ILLOP` (R84; DEDUCED, safe: log 12). -/
def readRegister (r : Byte) (s : State) : State :=
  match regOfNumber r with
  | none => s.refuse .illop
  | some .status => s.respond .success s.status
  | some .co2Ppm => readReading (fun x => x.co2Ppm.zeroExtend 32) s
  | some .tempQ16 => readReading Reading.tempQ16 s
  | some .humiQ16 => readReading Reading.humiQ16 s

/-- The meaning of `RD r`. -/
def execRd (r : Byte) (s : State) : Result := .next (readRegister r s)

end Sys2Proof.Machine
end

