-- ==== Sys2Proof/Machine/Parser.lean ====
section
/-! DEFINITION. The frame parser (41_parser_convert.md R130 to R134, R140): pure functions of the nine
bytes of the frame buffer. -/

namespace Sys2Proof.Machine

/-- The frame buffer `FB[0..8]`: nine bytes, `F[i]` at offset `i` (20_memory.md R61). It is a local of
`SES.READ`, not state (10_state.md R30; DEDUCED, safe: log 7). -/
abbrev Frame := Vector Byte 9

/-- `MemRead(addr, n)`: `[FB[addr], ..., FB[addr+n-1]]`, "defined only for `addr + n <= 9`" (R10, R66). No
rule reads outside offsets 0 to 8. -/
def memRead (F : Frame) (addr n : Nat) : Option (List Byte) :=
  if addr + n ≤ 9 then some ((F.toList.drop addr).take n) else none

/-- `payloadOffset(k) = 3k` (R130). -/
def payloadOffset (k : Fin 3) : Fin 9 := ⟨3 * k.val, by omega⟩

/-- `checksumOffset(k) = 3k + 2` (R130). -/
def checksumOffset (k : Fin 3) : Fin 9 := ⟨3 * k.val + 2, by omega⟩

/-- The high payload byte of sub-field `k`, at the lower offset (R61, R62). -/
def payloadHigh (F : Frame) (k : Fin 3) : Byte := F[payloadOffset k]

/-- The low payload byte of sub-field `k` (R61, R62). -/
def payloadLow (F : Frame) (k : Fin 3) : Byte := F[3 * k.val + 1]

/-- The checksum byte of sub-field `k` (R61). -/
def checksumByte (F : Frame) (k : Fin 3) : Byte := F[checksumOffset k]

/-- `len_ok(n)`: "acceptable exactly when `n = 9`" (R133). -/
def lenOk (n : Nat) : Bool := n == frameLen

/-- `field_ok(F, k)`: the checksum byte is the CRC of the two payload bytes, high byte first (R131). -/
def fieldOk (F : Frame) (k : Fin 3) : Bool := crc8 [payloadHigh F k, payloadLow F k] == checksumByte F k

/-- `raw16(F, k) := (zext_16(F[3k]) << 8) | zext_16(F[3k+1])` (R132). -/
def raw16 (F : Frame) (k : Fin 3) : Half :=
  ((payloadHigh F k).zeroExtend 16 <<< 8) ||| (payloadLow F k).zeroExtend 16

/-- `first_bad(F)`: CO2, then temperature, then humidity; the first that fails (R134). -/
def firstBad (F : Frame) : Option (Fin 3) := [0, 1, 2].find? (fun k => !fieldOk F k)

/-- The outcome of a parse (R140). -/
inductive ParseResult where
  | checksumError
  | success (r : Reading)
  deriving DecidableEq, Repr

/-- The reading a validated frame converts to (R140; R163 steps 6 and 7). -/
def convertFrame (F : Frame) : Reading where
  co2Ppm := convCo2 (raw16 F 0)
  tempQ16 := tempQ16 (raw16 F 1)
  humiQ16 := humiQ16 (raw16 F 2)

/-- `parse_frame(F)` (R140). -/
def parseFrame (F : Frame) : ParseResult :=
  match firstBad F with
  | some _ => .checksumError
  | none => .success (convertFrame F)

/-- The frame that carries three raw values with their checksums (R143). -/
def buildFrame (c t h : Half) : Frame :=
  let hi := fun (x : Half) => x.extractLsb' 8 8
  let lo := fun (x : Half) => x.extractLsb' 0 8
  #v[hi c, lo c, crc8 [hi c, lo c], hi t, lo t, crc8 [hi t, lo t], hi h, lo h, crc8 [hi h, lo h]]

end Sys2Proof.Machine
end

