-- ==== Sys2Proof/Machine/Session.lean ====
section
/-! DEFINITION. The session sequencer: `SES.START` and `SES.READ` (42_session.md R162, R163). -/

namespace Sys2Proof.Machine

/-- `SES.START`: transmit the start command; on success `MEAS <- 1` (R162). Legal in Idle and in Measuring
(R168). -/
def sesStart (s : State) : State :=
  match sendCommand cmdStart s with
  | .hung s' => s'
  | .returned false s' => s'.raise .transmitFailure
  | .returned true s' => State.respond .success 0 { s' with meas := .measuring }

/-- Steps 5 to 8 of a read: validate, reassemble, convert, deliver. The three reading registers and `VALID`
are written in the one step, and on a checksum error nothing is (R163, R166). -/
def deliver (F : Frame) (s : State) : State :=
  match parseFrame F with
  | .checksumError => s.raise .checksumError
  | .success r => State.respond .success 0 { s with reading := some r }

/-- Steps 2 to 8 of a read: request, length check, drain, deliver (R163). -/
def fetchFrame (s : State) : State :=
  match req periphAddr frameLen s with
  | .hung s' => s'
  | .returned n s' =>
    if lenOk n then
      match drain 9 s' with
      | .hung s'' => s''
      | .returned F s'' => deliver F s''
    else s'.raise .frameLengthError

/-- `SES.READ` (R163); in Idle it is refused and makes no transport call (R167). -/
def sesRead (s : State) : State :=
  match s.meas with
  | .idle => s.refuse .pviol
  | .measuring =>
    match sendCommand cmdRead s with
    | .hung s' => s'
    | .returned false s' => s'.raise .transmitFailure
    | .returned true s' => fetchFrame s'

/-- The meaning of `SES.START`. -/
def execSesStart (s : State) : Result := .next (sesStart s)

/-- The meaning of `SES.READ`. -/
def execSesRead (s : State) : Result := .next (sesRead s)

end Sys2Proof.Machine
end

