-- ==== Sys2Proof/Machine/Dispatch.lean ====
section
/-! DEFINITION. One arm per constructor of Instr: which meaning runs it. -/

namespace Sys2Proof.Machine

-- the meaning of every instruction (30_encoding.md R82, R87)
def exec (i : Instr) (s : State) : Host.Outcome State Fault Refusal :=
  match i with
  | .crcInit => Sys2Proof.Machine.execCrcInit s
  | .crcByte b => Sys2Proof.Machine.execCrcByte b s
  | .crcRead => Sys2Proof.Machine.execCrcRead s
  | .cnvCo2 raw => Sys2Proof.Machine.execCnvCo2 raw s
  | .cnvTemp raw => Sys2Proof.Machine.execCnvTemp raw s
  | .cnvHumi raw => Sys2Proof.Machine.execCnvHumi raw s
  | .sesStart => Sys2Proof.Machine.execSesStart s
  | .sesRead => Sys2Proof.Machine.execSesRead s
  | .rd r => Sys2Proof.Machine.execRd r s
  | .busStartPeriodic => Sys2Proof.Machine.execBusStartPeriodic s
  | .busReadMeasurement => Sys2Proof.Machine.execBusReadMeasurement s

end Sys2Proof.Machine
end

