-- ==== Sys2Proof/Machine/Step.lean ====
section
/-! DEFINITION. One step: the block takes the host's next input and does all of it (00_scope.md R7). -/

namespace Sys2Proof.Machine

/-- Run a word: decode it and execute the instruction, or reject the word. Decoding comes first
(60_exceptions.md R208). -/
def runWord (p : PortWord) (s : State) : Host.Outcome State Fault Refusal :=
  match decode p with
  | some i => exec i s
  | none => rejectWord p s

/-- One step. With nothing to do the block is quiescent: "it makes no transport call and changes no
state" (70_reset_and_hazards.md R240). -/
def step (s : State) : Host.Outcome State Fault Refusal :=
  match s.takeInput with
  | .quiet => .next s
  | .reset => .next s.applyReset
  | .early => .fault .wordBeforeResponse
  | .run p s' => runWord p s'

/-- The state in which the next step runs the opcode-table word `w` of `nbits` bits: the host presents it
next, and no operation is in progress (log 1). -/
def State.withFetchWord (s : State) (nbits w : Nat) : State := s.present (PortWord.ofTable nbits w)

end Sys2Proof.Machine
end

