-- ==== Sys2Proof/Machine/Pseudo.lean ====
section
/-! DEFINITION. The pseudo-operations of 30_encoding.md: `CRC.COMPUTE` as the instructions it expands to (R91),
`READDATA` as the host's procedure (R92), and the host issuing instructions. -/

namespace Sys2Proof.Machine

/-- `CRC.COMPUTE b0, ..., b(L-1)` (R91). -/
def crcCompute (bytes : List Byte) : List Instr := .crcInit :: bytes.map .crcByte ++ [.crcRead]

/-- The three register reads of `READDATA`, which the host issues only after a `SES.READ` that reported
Success (R92). -/
def readDataReads : List Instr := [.rd 1, .rd 2, .rd 3]

/-- The host issues these instructions, in this order (R90: "A program is a list of such lines, issued top
to bottom"). -/
def issueAll (is : List Instr) : List HostInput := is.map fun i => .issue (encode i)

/-! ## The host's side of a call

`READDATA` is not a fixed list of words: what the host issues after its first word depends on the response to
it. So it is a procedure of the host, which issues a word, takes the response and goes on. -/

/-- What a call of the host comes to. -/
inductive HostCall (α : Type) where
  /-- The block answered. -/
  | answered (answer : α) (s : State)
  /-- The block gave no response: it waits in a transport call (R169), or the machine stopped. -/
  | unanswered (outcome : Result)
  deriving Repr

/-- Go on with the answer, if there is one. -/
def HostCall.andThen {α β : Type} (c : HostCall α) (f : α → State → HostCall β) : HostCall β :=
  match c with
  | .answered a s => f a s
  | .unanswered o => .unanswered o

/-- The host issues this instruction next. -/
def State.issueNext (i : Instr) (s : State) : State := { s with inputs := .issue (encode i) :: s.inputs }

/-- The host issues one instruction and takes the one response to it (R7). -/
def hostCall (i : Instr) (s : State) : HostCall Response :=
  match step (s.issueNext i) with
  | .next t =>
    match t.responses.drop s.responses.length with
    | r :: _ => .answered r t
    | [] => .unanswered (.next t)
  | .fault f => .unanswered (.fault f)
  | .refused r => .unanswered (.refused r)

/-- The host issues a list of instructions, each after the response to the one before, and takes all the
responses. -/
def hostCalls : List Instr → State → HostCall (List Response)
  | [], s => .answered [] s
  | i :: is, s =>
    (hostCall i s).andThen fun r t => (hostCalls is t).andThen fun rs u => .answered (r :: rs) u

/-! ## `READDATA` (R92) -/

/-- The reading a caller gets, in physical units (R92; 10_state.md R24). The scaled values are exact rational
numbers, as 41_parser_convert.md R138 asks. -/
structure SensorReading where
  /-- In ppm. -/
  co2Ppm : Half
  /-- In degrees Celsius. -/
  temperature : ℚ
  /-- In percent. -/
  humidity : ℚ
  deriving DecidableEq, Repr

/-- The reading the host makes of the data of the three register reads: `data[15:0]`, `s_32(data) / 65536`,
`data / 65536` (R92). -/
def sensorReading (co2 temp humi : Data) : SensorReading where
  co2Ppm := co2.extractLsb' 0 16
  temperature := (temp.toInt : ℚ) / 65536
  humidity := (humi.toNat : ℚ) / 65536

/-- The reading of three responses. -/
def sensorReadingOf : List Response → Option SensorReading
  | [c, t, h] => some (sensorReading c.data t.data h.data)
  | _ => none

/-- The operation was accepted and reports Success (R85, R86). -/
def Response.isSuccess (r : Response) : Bool := r.acc && r.st == Status.success.code

/-- What `READDATA` returns: the response to its `SES.READ`, whose `st` is the status, and the reading, if there
is one for this call. -/
structure ReadDataAnswer where
  response : Response
  reading : Option SensorReading
  deriving DecidableEq, Repr

/-- `READDATA`: `SES.READ`, and only if it reported Success the three register reads. "When `SES.READ` is refused
or reports a failure the host issues none of the three `RD` and has no reading for this call" (R92). -/
def readData (s : State) : HostCall ReadDataAnswer :=
  (hostCall .sesRead s).andThen fun r t =>
    if r.isSuccess then (hostCalls readDataReads t).andThen fun rs u => .answered ⟨r, sensorReadingOf rs⟩ u
    else .answered ⟨r, none⟩ t

end Sys2Proof.Machine
end

