-- ==== Sys2Proof/Safety.lean ====
section
/-! DEFINITION. The terms claims are made in: what a clean run is (10_state.md R27;
70_reset_and_hazards.md R240), which transport events a session operation leaves (42_session.md R170),
what a state's transport is about to answer, and the invariants of the session. -/

namespace Sys2Proof.Machine

/-- Nothing has gone wrong: no fault flag is set and no operation is without its response (R27, R240). A
reported failure is not going wrong. -/
def State.Clean (s : State) : Prop :=
  s.illop = false ∧ s.pviol = false ∧ s.noval = false ∧ s.pending = none

/-- The next nine `RX` replies of the transport are these bytes, in this order. -/
def State.delivers (s : State) (F : Frame) : Prop :=
  ∀ i : Fin 9, (State.spendRxs i.val s).rxReply = .returns F[i]

/-- The event of transmitting the start command, `[0x21, 0xB1]` to `0x62` (R170). -/
def startEvent (ok : Bool) : TransportEvent := .tx 0x62 [0x21, 0xB1] ok

/-- The event of transmitting the read command, `[0xEC, 0x05]` to `0x62` (R170). -/
def readEvent (ok : Bool) : TransportEvent := .tx 0x62 [0xEC, 0x05] ok

/-- The events of a read that took nine bytes: transmit, request, nine bytes (R170). -/
def frameEvents (F : Frame) : List TransportEvent :=
  readEvent true :: .req 0x62 9 9 :: F.toList.map .rx

/-- The environment after a read that took nine bytes: one reply to `TX`, one to `REQ`, nine to `RX` were
spent. The block's own state is as before. -/
def State.spendRead (s : State) : State := State.spendRxs 9 s.spendTx.spendReq

/-- The number of bits of `e` that are set: how many bits an error pattern flips. -/
def ones {w : Nat} (e : BitVec w) : Nat := ((List.range w).filter fun i => e.getLsbD i).length

/-- The frame with the bits of the 24-bit pattern `e` flipped in sub-field `k`, the pattern laid over
`{payload high, payload low, checksum}` (40_crc.md R118 fact 5). -/
def corrupt (F : Frame) (k : Fin 3) (e : BitVec 24) : Frame :=
  ((F.set (3 * k.val) (payloadHigh F k ^^^ e.extractLsb' 16 8)).set
    (3 * k.val + 1) (payloadLow F k ^^^ e.extractLsb' 8 8)).set
    (3 * k.val + 2) (checksumByte F k ^^^ e.extractLsb' 0 8)

/-- What a list of instructions leaves in the accumulator, if only `CRC.INIT` and `CRC.BYTE` write it
(R22). -/
def crcAfter (is : List Instr) (acc : Byte) : Byte :=
  is.foldl (fun a i => match i with
    | .crcInit => 0xFF
    | .crcByte b => crc8Update a b
    | .crcRead | .cnvCo2 _ | .cnvTemp _ | .cnvHumi _ | .sesStart | .sesRead | .rd _
    | .busStartPeriodic | .busReadMeasurement => a) acc

/-- Measuring was entered by a start command the transport took, and a reading needs Measuring (R23, R26,
R161). -/
def State.SessionHistory (s : State) : Prop :=
  (s.meas = .measuring → startEvent true ∈ s.trace) ∧ (s.reading.isSome → s.meas = .measuring)

/-- The reading registers hold the conversion of one frame that the transport delivered in one read, all
three of whose checksums match (R25): "a `SensorReading` is never exposed to the caller unless all three
sub-field checksums validated". -/
def State.ReadingBacked (s : State) : Prop :=
  ∀ r, s.reading = some r →
    ∃ F before after, s.trace = before ++ frameEvents F ++ after ∧ (∀ k, fieldOk F k = true) ∧ r = convertFrame F

end Sys2Proof.Machine
end

