-- ==== Sys2Proof/Certificates/Slice0/Obligations.lean ====
section
/-! DEFINITION. The statements for the provers. In a next state written `{ s with … }` every field not named
is as it was: that is the frame. A response is `⟨acc, st, data⟩`. -/

open Sys2Proof Sys2Proof.Machine

/-! ## Encoding -/

/-- Every well-formed instruction is read back from its own word, with every operand at every value. -/
def Obligations.DecodeOfEncodeIsTheInstruction : Prop :=
  ∀ i : Instr, i.wellFormed = true → decode (encode i) = some i

/-- A word that decodes is the word of the instruction read from it, and that instruction is well formed: each
operation instance has one encoding (92_eei_decisions.md D21). -/
def Obligations.EncodeOfDecodeIsTheWord : Prop :=
  ∀ (p : PortWord) (i : Instr), decode p = some i → i.wellFormed = true ∧ encode i = p

/-- R82: the decoder and the match-and-mask table select the same row for every word; no word matches two
rows; 196872 of the 2^24 words are legal. -/
def Obligations.DecoderFollowsTheOpcodeMap : Prop :=
  (∀ w : OpWord, (decode (.operation w)).map Instr.mnemonic =
    (opcodeMap.find? fun row => row.selectedBy w).map OpcodeRow.mnemonic) ∧
  (∀ w : OpWord, ∀ r₁ ∈ opcodeMap, ∀ r₂ ∈ opcodeMap,
    r₁.selectedBy w = true → r₂.selectedBy w = true → r₁ = r₂) ∧
  ((Finset.range (2 ^ 24)).filter fun n => (decode (.operation (BitVec.ofNat 24 n))).isSome).card = 196872

/-- R84 and R204: exactly which words are illegal, and what the block does with one: `acc = 0`,
`ILLOP <- 1`, nothing else. (`draws` counts the model's free values, log 5; no value of it is stated.) -/
def Obligations.IllegalWordsAreRefused : Prop :=
  (∀ (opc : Byte) (imm : Half), decode (.operation (opWord opc imm)) = none ↔
    opc ∉ ([0x01, 0x02, 0x03, 0x10, 0x11, 0x12, 0x20, 0x21, 0x30] : List Byte) ∨
    (opc ∈ ([0x01, 0x03, 0x20, 0x21] : List Byte) ∧ imm ≠ 0) ∨
    (opc ∈ ([0x02, 0x30] : List Byte) ∧ imm.extractLsb' 8 8 ≠ 0) ∨
    (opc = 0x30 ∧ 3 < (imm.extractLsb' 0 8).toNat)) ∧
  (∀ (s : State) (w : OpWord) (rest : List HostInput), s.inputs = .issue (.operation w) :: rest →
    s.pending = none → decode (.operation w) = none →
    ∃ (r : Response) (n : Nat), r.acc = false ∧
      step s = .next { s with inputs := rest, illop := true, responses := s.responses ++ [r], draws := n })

/-- The verdicts of 95_test_vectors.md section 2.10, word by word. -/
def Obligations.SampleWordsDecode : Prop :=
  decode (.operation 0x010000) = some .crcInit ∧ decode (.operation 0x010001) = none ∧
  decode (.operation 0x0200FF) = some (.crcByte 0xFF) ∧ decode (.operation 0x0201FF) = none ∧
  decode (.operation 0x030000) = some .crcRead ∧ decode (.operation 0x10BEEF) = some (.cnvCo2 0xBEEF) ∧
  decode (.operation 0x11FFFF) = some (.cnvTemp 0xFFFF) ∧ decode (.operation 0x120000) = some (.cnvHumi 0) ∧
  decode (.operation 0x200000) = some .sesStart ∧ decode (.operation 0x200100) = none ∧
  decode (.operation 0x210000) = some .sesRead ∧ decode (.operation 0x300003) = some (.rd 3) ∧
  decode (.operation 0x300004) = none ∧ decode (.operation 0x300100) = none ∧
  decode (.busCommand 0x21B1) = some .busStartPeriodic ∧ decode (.busCommand 0xEC05) = some .busReadMeasurement

/-! ## The step -/

/-- When the host presents a word and no operation is in progress, the step is the execution of the
instruction the word decodes to, in the state with that word taken from the host's list. For an operation word
this is R7, with the host's words held as a list (log 1); that a bus command can be presented by itself and is run
by a step is the model's choice (log 10). -/
def Obligations.StepRunsTheDecodedInstruction : Prop :=
  ∀ (s : State) (p : PortWord) (rest : List HostInput) (i : Instr), s.inputs = .issue p :: rest →
    s.pending = none → decode p = some i → step s = exec i { s with inputs := rest }

/-- R240: between operations the block is quiescent. -/
def Obligations.QuietBlockChangesNothing : Prop :=
  ∀ s : State, s.inputs = [] → step s = .next s

/-- The machine faults exactly when a word comes before the response to the one before it (R234; the fault is
the model's choice, log 4), and is without a meaning exactly for a bus command the block never sends, issued by
itself (the model's choices, logs 10 and 11). -/
def Obligations.OnlyAnEarlyWordFaults : Prop :=
  (∀ (s : State) (f : Fault), step s = .fault f ↔
    f = .wordBeforeResponse ∧ (∃ c, s.pending = some c) ∧ ∃ p rest, s.inputs = .issue p :: rest) ∧
  (∀ (s : State) (r : Refusal), step s = .refused r ↔
    ∃ c rest, r = .unknownBusCommand c ∧ s.pending = none ∧ s.inputs = .issue (.busCommand c) :: rest ∧
      c ≠ 0x21B1 ∧ c ≠ 0xEC05)

/-- R230: the reset event puts every piece of the block's state to its value of R35, in every state, also
while a transport call has not returned (R242), and makes no transport call; and it is the only way back to Idle,
to `VALID = 0` and to a clear fault flag. That it takes no reply of the transport says that it makes no call; that
the host's further inputs, the transport's replies and the counter of free values stay is the model's choice
(log 8), and so is that a call in progress is where a reset in mid-operation falls (log 9). -/
def Obligations.ResetEventGivesTheResetState : Prop :=
  (∀ (s : State) (rest : List HostInput), s.inputs = .reset :: rest → ∃ t, step s = .next t ∧
    t.meas = .idle ∧ t.crc = 0xFF ∧ t.valid = false ∧ t.reading = none ∧ t.illop = false ∧ t.pviol = false ∧
    t.noval = false ∧ t.trace = [] ∧ t.pending = none ∧ t.inputs = rest ∧ t.txScript = s.txScript ∧
    t.reqScript = s.reqScript ∧ t.rxScript = s.rxScript ∧ t.draws = s.draws) ∧
  (∀ s t : State, step s = .next t →
    (s.meas = .measuring ∧ t.meas = .idle) ∨ (s.valid = true ∧ t.valid = false) ∨
      (s.illop = true ∧ t.illop = false) ∨ (s.pviol = true ∧ t.pviol = false) ∨
      (s.noval = true ∧ t.noval = false) → ∃ rest, s.inputs = .reset :: rest)

/-- R35: the values after reset. -/
def Obligations.StateAfterReset : Prop :=
  State.reset.meas = .idle ∧ State.reset.crc = 0xFF ∧ State.reset.valid = false ∧ State.reset.reading = none ∧
  State.reset.illop = false ∧ State.reset.pviol = false ∧ State.reset.noval = false ∧ State.reset.trace = []

/-- R231 (the spec's inference): which operations are available straight after reset, with every operand, and
which are refused, whatever the transport is going to answer. -/
def Obligations.OperationsStraightAfterReset : Prop :=
  ∀ tx : List (Reply Bool), let s := { State.reset with txScript := tx }
    (exec .crcRead s = .next { s with responses := [⟨true, 0, 0xFF⟩] }) ∧
    (exec (.rd 0) s = .next { s with responses := [⟨true, 0, 0⟩] }) ∧
    (∀ (b : Byte) (raw : Half),
      ∀ i ∈ ([.crcInit, .crcByte b, .cnvCo2 raw, .cnvTemp raw, .cnvHumi raw] : List Instr), ∃ t d,
        exec i s = .next t ∧ t.responses = [⟨true, 0, d⟩]) ∧
    (∀ ok, s.txReply = .returns ok → ∃ t, exec .sesStart s = .next t ∧
      t.responses = [⟨true, if ok then 0 else 1, 0⟩]) ∧
    (∃ t r, exec .sesRead s = .next t ∧ t.responses = [r] ∧ r.acc = false ∧ t.pviol = true) ∧
    (∀ n ∈ ([1, 2, 3] : List Byte), ∃ t r, exec (.rd n) s = .next t ∧ t.responses = [r] ∧ r.acc = false ∧
      t.noval = true)

/-! ## The CRC unit -/

/-- R114: `CRC.INIT`, its word, its illegal words, its effect and its frame. -/
def Obligations.CrcInitLoadsTheInitialValue : Prop :=
  decode (.operation 0x010000) = some .crcInit ∧
  (∀ imm : Half, imm ≠ 0 → decode (.operation (opWord 0x01 imm)) = none) ∧
  (∀ s : State, exec .crcInit s = .next { s with crc := 0xFF, responses := s.responses ++ [⟨true, 0, 0⟩] })

/-- R115: `CRC.BYTE b`, its words, its illegal words, its effect and its frame, with the corner cases. -/
def Obligations.CrcByteFoldsTheByte : Prop :=
  (∀ b : Byte, decode (.operation (opWord 0x02 (b.zeroExtend 16))) = some (.crcByte b)) ∧
  (∀ hi lo : Byte, hi ≠ 0 → decode (.operation (opWord 0x02 (hi ++ lo))) = none) ∧
  (∀ (s : State) (b : Byte), exec (.crcByte b) s =
    .next { s with crc := crc8Update s.crc b, responses := s.responses ++ [⟨true, 0, 0⟩] }) ∧
  crc8Update 0xFF 0x00 = 0xAC ∧ (∀ b : Byte, crc8Update b b = 0x00) ∧
  crc8Update 0xFF 0xBE = 0x0C ∧ crc8Update 0x0C 0xEF = 0x92

/-- R116: `CRC.READ`, its word, its effect and its frame. -/
def Obligations.CrcReadReturnsTheAccumulator : Prop :=
  decode (.operation 0x030000) = some .crcRead ∧
  (∀ s : State, exec .crcRead s =
    .next { s with responses := s.responses ++ [⟨true, 0, s.crc.zeroExtend 32⟩] }) ∧
  (∀ s : State, (s.crc.zeroExtend 32 : Data).extractLsb' 8 24 = 0)

/-- The values of R112, R113 and R120 and of 95_test_vectors.md section 2.2 that tell one parameter of the CRC
from another. -/
def Obligations.CrcReferenceValues : Prop :=
  crc8 [] = 0xFF ∧ crc8 [0xBE, 0xEF] = 0x92 ∧ crc8 [0xEF, 0xBE] = 0xCE ∧ crc8 [0x80, 0x00] = 0xA2 ∧
  crc8 [0x31, 0x32, 0x33, 0x34, 0x35, 0x36, 0x37, 0x38, 0x39] = 0xF7

/-- The bit-serial update is polynomial division: the new accumulator is congruent to x^8 times the old one
with the byte added, modulo x^8+x^5+x^4+1 over the field of two elements (R112: "the term x^8 is implicit and is
the bit shifted out"). -/
def Obligations.CrcUpdateIsPolynomialDivision : Prop :=
  let poly : Byte → Polynomial (ZMod 2) :=
    fun a => ∑ i ∈ Finset.range 8, if a.getLsbD i then Polynomial.X ^ i else 0
  ∀ acc b : Byte, (Polynomial.X ^ 8 + Polynomial.X ^ 5 + Polynomial.X ^ 4 + 1 : Polynomial (ZMod 2)) ∣
    Polynomial.X ^ 8 * poly (acc ^^^ b) - poly (crc8Update acc b)

/-- R118 fact 1, an inference the spec marks as its own: the update is linear over exclusive-or and depends on
its arguments through their exclusive-or alone. -/
def Obligations.CrcUpdateIsLinear : Prop :=
  (∀ a a' b b' : Byte, crc8Update (a ^^^ a') (b ^^^ b') = crc8Update a b ^^^ crc8Update a' b') ∧
  (∀ acc b : Byte, crc8Update acc b = crc8Update 0 (acc ^^^ b))

/-- R118 fact 2 (the spec's inference): for each byte, and for each accumulator, the update is a bijection. -/
def Obligations.CrcUpdateIsBijective : Prop :=
  (∀ b : Byte, Function.Bijective fun acc => crc8Update acc b) ∧
  (∀ acc : Byte, Function.Bijective fun b => crc8Update acc b)

/-- R118 fact 3 (the spec's inference): appending the checksum gives zero, for a list of any length. -/
def Obligations.AppendingTheChecksumGivesZero : Prop :=
  ∀ bytes : List Byte, crc8 (bytes ++ [crc8 bytes]) = 0x00

/-- R118 fact 4 (the spec's inference): each checksum is that of exactly 256 two-byte payloads. -/
def Obligations.EachChecksumHas256Payloads : Prop :=
  ∀ c : Byte, ((Finset.range 65536).filter fun n =>
    crc8 [BitVec.ofNat 8 (n / 256), BitVec.ofNat 8 (n % 256)] = c).card = 256

/-- R118 fact 1 and R119 (the spec's inference): the CRC through the printed table of 95_test_vectors.md
section 2.3 is the bit-serial CRC, on every list. -/
def Obligations.TableDrivenCrcAgrees : Prop :=
  ∀ bytes : List Byte, crc8ByTable bytes = crc8 bytes

/-- R91 and R117 (the spec's inference): the words of `CRC.COMPUTE`, issued in any state between operations,
leave `crc8` of the bytes in `CRC` and return it, and change nothing else. -/
def Obligations.CrcComputeReturnsCrc8 : Prop :=
  ∀ (s : State) (bytes : List Byte) (rest : List HostInput), s.pending = none →
    s.inputs = issueAll (crcCompute bytes) ++ rest →
    Sys2Proof.core.run (bytes.length + 2) s = (.next { s with
      inputs := rest
      crc := crc8 bytes
      responses := s.responses ++ List.replicate (bytes.length + 1) ⟨true, 0, 0⟩ ++
        [⟨true, 0, (crc8 bytes).zeroExtend 32⟩] } : Result)

/-- R117 and R236 (the spec's inference): through any sequence of operations that ran, the accumulator is what
its `CRC.INIT` and `CRC.BYTE` operations make it; session, converter and register-read operations in between,
whatever their outcome, do not disturb it. -/
def Obligations.OtherOperationsLeaveTheCrcAlone : Prop :=
  ∀ (is : List Instr) (s t : State) (rest : List HostInput), (∀ i ∈ is, i.wellFormed = true) →
    s.inputs = issueAll is ++ rest → Sys2Proof.core.run is.length s = (.next t : Result) →
    t.crc = crcAfter is s.crc

/-! ## The converter -/

/-- R145: `CNV.CO2 raw`, its words, its effect and its frame. -/
def Obligations.CnvCo2RespondsTheRawValue : Prop :=
  (∀ raw : Half, decode (.operation (opWord 0x10 raw)) = some (.cnvCo2 raw)) ∧
  (∀ (s : State) (raw : Half), exec (.cnvCo2 raw) s =
    .next { s with responses := s.responses ++ [⟨true, 0, raw.zeroExtend 32⟩] }) ∧
  (∀ raw : Half, (raw.zeroExtend 32 : Data).extractLsb' 16 16 = 0)

/-- R146: `CNV.TEMP raw`, its words, its effect and its frame: `data` is the two's-complement pattern of
`175 × raw − 2949120`. -/
def Obligations.CnvTempRespondsTheTemperature : Prop :=
  (∀ raw : Half, decode (.operation (opWord 0x11 raw)) = some (.cnvTemp raw)) ∧
  (∀ (s : State) (raw : Half), ∃ d : Data, d.toInt = 175 * (raw.toNat : Int) - 2949120 ∧
    exec (.cnvTemp raw) s = .next { s with responses := s.responses ++ [⟨true, 0, d⟩] }) ∧
  tempQ16 0 = 0xFFD30000 ∧ tempQ16 0xFFFF = 0x0081FF51 ∧ tempQ16 0x41D4 = 0xFFFFFFEC ∧
  tempQ16 0x41D5 = 0x0000009B ∧ tempQ16 0x8000 = 0x002A8000 ∧ tempQ16 0x6667 = 0x00190069

/-- R147: `CNV.HUMI raw`, its words, its effect and its frame: `data` is `100 × raw`. -/
def Obligations.CnvHumiRespondsTheHumidity : Prop :=
  (∀ raw : Half, decode (.operation (opWord 0x12 raw)) = some (.cnvHumi raw)) ∧
  (∀ (s : State) (raw : Half), ∃ d : Data, d.toNat = 100 * raw.toNat ∧
    exec (.cnvHumi raw) s = .next { s with responses := s.responses ++ [⟨true, 0, d⟩] }) ∧
  humiQ16 0 = 0 ∧ humiQ16 0xFFFF = 0x0063FF9C ∧ humiQ16 0x8000 = 0x00320000 ∧ humiQ16 0x5EB9 = 0x00250044

/-- R138 (the spec's inference), with R136 and R137: the rational number each scaled register stands for is the
document's formula exactly. -/
def Obligations.ScaledRegistersAreExact : Prop :=
  ∀ raw : Half,
    ((tempQ16 raw).toInt : ℚ) / 65536 = -45 + 175 * (raw.toNat : ℚ) / 65536 ∧
    ((humiQ16 raw).toNat : ℚ) / 65536 = 100 * (raw.toNat : ℚ) / 65536

/-- R139 and R142 (the spec's inference): bounds, strict order, the sign change between 16852 and 16853, never
exactly zero, and the bits that repeat the sign or are always 0. -/
def Obligations.ConverterRangeAndOrder : Prop :=
  (∀ raw : Half, -2949120 ≤ (tempQ16 raw).toInt ∧ (tempQ16 raw).toInt ≤ 8519505 ∧ (tempQ16 raw).toInt ≠ 0) ∧
  (∀ raw : Half, (humiQ16 raw).toNat ≤ 6553500) ∧
  (∀ x y : Half, x.toNat < y.toNat → (tempQ16 x).toInt < (tempQ16 y).toInt ∧
    (humiQ16 x).toNat < (humiQ16 y).toNat ∧ (convCo2 x).toNat < (convCo2 y).toNat) ∧
  (∀ raw : Half, (tempQ16 raw).toInt < 0 ↔ raw.toNat ≤ 16852) ∧
  (∀ (raw : Half) (i : Nat), 24 ≤ i → i < 32 → (tempQ16 raw).getLsbD i = (tempQ16 raw).msb) ∧
  (∀ (raw : Half) (i : Nat), 23 ≤ i → (humiQ16 raw).getLsbD i = false)

/-! ## The frame parser -/

/-- R134: sub-fields are validated CO2, temperature, humidity, and the first mismatch is the one found. -/
def Obligations.FirstMismatchInOrder : Prop :=
  (∀ (F : Frame) (k : Fin 3), firstBad F = some k ↔
    fieldOk F k = false ∧ ∀ j : Fin 3, j < k → fieldOk F j = true) ∧
  (∀ F : Frame, firstBad F = none ↔ ∀ k : Fin 3, fieldOk F k = true)

/-- R132: each raw value is its two payload bytes, the one at the lower offset the more significant. -/
def Obligations.PayloadsAreBigEndian : Prop :=
  ∀ F : Frame,
    (raw16 F 0).toNat = 256 * F[0].toNat + F[1].toNat ∧
    (raw16 F 1).toNat = 256 * F[3].toNat + F[4].toNat ∧
    (raw16 F 2).toNat = 256 * F[6].toNat + F[7].toNat

/-- R131: `field_ok` compares the checksum byte with the CRC of the two payload bytes, high byte first, and
reads the three bytes of its sub-field and nothing else. -/
def Obligations.FieldOkComparesTheChecksum : Prop :=
  (∀ F : Frame, (fieldOk F 0 = true ↔ crc8 [F[0], F[1]] = F[2]) ∧ (fieldOk F 1 = true ↔ crc8 [F[3], F[4]] = F[5]) ∧
    (fieldOk F 2 = true ↔ crc8 [F[6], F[7]] = F[8])) ∧
  (∀ (F G : Frame) (k : Fin 3), (∀ i : Fin 9, i.val / 3 = k.val → F[i] = G[i]) → fieldOk F k = fieldOk G k)

/-- R141 and R118 fact 5 (the spec's inferences): in a frame that validates, flipping one, two or three bits of
one sub-field, payload or checksum, gives ChecksumError and leaves the other two validations alone; whether a
corrupted sub-field still validates depends on the error pattern and not on the frame or the sub-field; and exactly
80 patterns of four bits pass, `0x800023` among them. -/
def Obligations.CorruptionIsDetected : Prop :=
  (∀ (F : Frame) (k : Fin 3) (e : BitVec 24), firstBad F = none → 1 ≤ ones e → ones e ≤ 3 →
    parseFrame (corrupt F k e) = .checksumError ∧ firstBad (corrupt F k e) = some k ∧
    ∀ j : Fin 3, j ≠ k → fieldOk (corrupt F k e) j = fieldOk F j) ∧
  (∀ (F G : Frame) (j k : Fin 3) (e : BitVec 24), firstBad F = none → firstBad G = none →
    (firstBad (corrupt F j e) = none ↔ firstBad (corrupt G k e) = none)) ∧
  (ones (0x800023 : BitVec 24) = 4 ∧
    ∀ (F : Frame) (k : Fin 3), firstBad F = none → firstBad (corrupt F k 0x800023) = none) ∧
  {e : BitVec 24 | ones e = 4 ∧
    ∀ (F : Frame) (k : Fin 3), firstBad F = none → firstBad (corrupt F k e) = none}.ncard = 80

/-- R143 (the spec's inference): a frame built from three raw values with their checksums parses to exactly their
conversions, and every frame that parses is built so from one triple. -/
def Obligations.FrameRoundTrip : Prop :=
  (∀ c t h : Half, ∃ r : Reading, parseFrame (buildFrame c t h) = .success r ∧ r.co2Ppm = c ∧
    r.tempQ16.toInt = 175 * (t.toNat : Int) - 2949120 ∧ r.humiQ16.toNat = 100 * h.toNat) ∧
  (∀ (F : Frame) (r : Reading), parseFrame F = .success r →
    ∃! x : Half × Half × Half, F = buildFrame x.1 x.2.1 x.2.2)

/-! ## The session sequencer -/

/-- R162 and R168: `SES.START` in either session state, by the transport's answer: one transmit of `[0x21, 0xB1]`
to `0x62`, `MEAS <- 1` on success only, TransmitFailure otherwise, and nothing else of the block's state.
(`spendTx` takes the answer from the environment.) -/
def Obligations.SesStartByAnswer : Prop :=
  decode (.operation 0x200000) = some .sesStart ∧
  (∀ s : State, s.txReply = .returns true → exec .sesStart s = .next { s.spendTx with
    meas := .measuring
    trace := s.trace ++ [.tx 0x62 [0x21, 0xB1] true]
    responses := s.responses ++ [⟨true, 0, 0⟩] }) ∧
  (∀ s : State, s.txReply = .returns false → exec .sesStart s = .next { s.spendTx with
    trace := s.trace ++ [.tx 0x62 [0x21, 0xB1] false]
    responses := s.responses ++ [⟨true, 1, 0⟩] })

/-- R167 and R205: `SES.READ` in Idle is refused with `PVIOL`, and nothing else happens. -/
def Obligations.SesReadInIdleIsRefused : Prop :=
  ∀ s : State, s.meas = .idle → ∃ (r : Response) (n : Nat), r.acc = false ∧ exec .sesRead s = .next { s with
    pviol := true, responses := s.responses ++ [r], draws := n }

/-- R201: a transmit the transport could not make ends the operation with `st = 1`; `SES.START` leaves `MEAS`
unchanged, `SES.READ` makes no further call and writes nothing. No other operation reports `st = 1`. -/
def Obligations.TransmitFailureEndsTheOperation : Prop :=
  (∀ s : State, s.txReply = .returns false → exec .sesStart s = .next { s.spendTx with
    trace := s.trace ++ [startEvent false], responses := s.responses ++ [⟨true, 1, 0⟩] }) ∧
  (∀ s : State, s.meas = .measuring → s.txReply = .returns false → exec .sesRead s = .next { s.spendTx with
    trace := s.trace ++ [readEvent false], responses := s.responses ++ [⟨true, 1, 0⟩] }) ∧
  (∀ (i : Instr) (s t : State) (d : Data), exec i s = .next t → t.responses = s.responses ++ [⟨true, 1, d⟩] →
    (i = .sesStart ∨ i = .sesRead) ∧ s.txReply = .returns false)

/-- R202 and R133: any count other than 9 ends a read with `st = 2`; no byte is taken and nothing is written. No
other operation, and no read answered with 9, reports `st = 2`. -/
def Obligations.WrongLengthEndsTheRead : Prop :=
  (∀ (s : State) (n : Nat), s.meas = .measuring → s.txReply = .returns true →
    s.spendTx.reqReply = .returns n → n ≠ 9 → exec .sesRead s = .next { s.spendTx.spendReq with
      trace := s.trace ++ [readEvent true, .req 0x62 9 n], responses := s.responses ++ [⟨true, 2, 0⟩] }) ∧
  (∀ (i : Instr) (s t : State) (d : Data), exec i s = .next t → t.responses = s.responses ++ [⟨true, 2, d⟩] →
    i = .sesRead ∧ ∃ n, n ≠ 9 ∧ t.trace = s.trace ++ [readEvent true, .req 0x62 9 n])

/-- R203: nine bytes with a wrong checksum end a read with `st = 3`; all nine were taken and nothing is
written. No other operation, and no read of a frame that validates, reports `st = 3`. -/
def Obligations.WrongChecksumEndsTheRead : Prop :=
  (∀ (s : State) (F : Frame), s.meas = .measuring → s.txReply = .returns true →
    s.spendTx.reqReply = .returns 9 → s.spendTx.spendReq.delivers F → firstBad F ≠ none →
    exec .sesRead s = .next { s.spendRead with
      trace := s.trace ++ frameEvents F, responses := s.responses ++ [⟨true, 3, 0⟩] }) ∧
  (∀ (i : Instr) (s t : State) (d : Data), exec i s = .next t → t.responses = s.responses ++ [⟨true, 3, d⟩] →
    i = .sesRead ∧ ∃ F, firstBad F ≠ none ∧ t.trace = s.trace ++ frameEvents F)

/-- R163 and R66: nine bytes whose checksums all match end a read with Success; the three reading registers are
written together from the bytes in arrival order, and nothing else of the block's state is. -/
def Obligations.GoodFrameIsDelivered : Prop :=
  ∀ (s : State) (F : Frame), s.meas = .measuring → s.txReply = .returns true →
    s.spendTx.reqReply = .returns 9 → s.spendTx.spendReq.delivers F →
    crc8 [F[0], F[1]] = F[2] → crc8 [F[3], F[4]] = F[5] → crc8 [F[6], F[7]] = F[8] →
    ∃ r : Reading,
      r.co2Ppm.toNat = 256 * F[0].toNat + F[1].toNat ∧
      r.tempQ16.toInt = 175 * (256 * (F[3].toNat : Int) + F[4].toNat) - 2949120 ∧
      r.humiQ16.toNat = 100 * (256 * F[6].toNat + F[7].toNat) ∧
      exec .sesRead s = .next { s.spendRead with
        reading := some r, trace := s.trace ++ frameEvents F, responses := s.responses ++ [⟨true, 0, 0⟩] }

/-- R171 (the spec's inference): what a read in Measuring does depends on the transport's answers alone, not on
`CRC`, on `VALID`, on the reading registers, on the flags or on earlier operations. -/
def Obligations.ReadDependsOnAnswersAlone : Prop :=
  ∀ s u t v : State, s.meas = .measuring → u.meas = .measuring → s.txScript = u.txScript →
    s.reqScript = u.reqScript → s.rxScript = u.rxScript → s.draws = u.draws →
    s.pending = none → u.pending = none → exec .sesRead s = .next t → exec .sesRead u = .next v →
    t.pending = v.pending ∧ ∃ events answers,
      t.trace = s.trace ++ events ∧ v.trace = u.trace ++ events ∧
      t.responses = s.responses ++ answers ∧ v.responses = u.responses ++ answers ∧
      (answers = [⟨true, 0, 0⟩] → t.reading = v.reading ∧ t.reading.isSome) ∧
      (answers ≠ [⟨true, 0, 0⟩] → t.reading = s.reading ∧ v.reading = u.reading)

/-- R169: an operation whose `TX`, `REQ` or `RX` never returns gives no response; the block waits in that call,
and `CRC`, `MEAS`, the reading and the flags are untouched. That this is a next state in which `pending` names the
call, with no trace event for it, is the model's choice (log 3). -/
def Obligations.UnreturnedCallGivesNoResponse : Prop :=
  (∀ s : State, s.txReply = .never →
    exec .sesStart s = .next { s.spendTx with pending := some (.tx 0x62 [0x21, 0xB1]) } ∧
    (s.meas = .measuring →
      exec .sesRead s = .next { s.spendTx with pending := some (.tx 0x62 [0xEC, 0x05]) })) ∧
  (∀ s : State, s.meas = .measuring → s.txReply = .returns true → s.spendTx.reqReply = .never →
    exec .sesRead s = .next { s.spendTx.spendReq with
      trace := s.trace ++ [readEvent true], pending := some (.req 0x62 9) }) ∧
  (∀ (s : State) (bytes : List Byte), s.meas = .measuring → s.txReply = .returns true →
    s.spendTx.reqReply = .returns 9 → bytes.length < 9 →
    (∀ i (h : i < bytes.length), (State.spendRxs i s.spendTx.spendReq).rxReply = .returns bytes[i]) →
    (State.spendRxs bytes.length s.spendTx.spendReq).rxReply = .never →
    exec .sesRead s = .next { State.spendRxs (bytes.length + 1) s.spendTx.spendReq with
      trace := s.trace ++ readEvent true :: .req 0x62 9 9 :: bytes.map .rx, pending := some .rx }) ∧
  (∀ (i : Instr) (s t : State), s.pending = none → exec i s = .next t → t.pending ≠ none →
    t.crc = s.crc ∧ t.meas = s.meas ∧ t.reading = s.reading ∧ t.illop = s.illop ∧ t.pviol = s.pviol ∧
    t.noval = s.noval ∧ t.responses = s.responses)

/-- R170 (the spec's inference): for each operation that ended, the transport events it made and the response it
gave are one row of the table; no operation but the two of the session makes a transport call. (A bus command
issued by itself, log 10, is no operation.) -/
def Obligations.TracesByOutcome : Prop :=
  ∀ (i : Instr) (s t : State), i ≠ .busStartPeriodic → i ≠ .busReadMeasurement → exec i s = .next t →
    t.pending = none → ∃ events r, t.trace = s.trace ++ events ∧ t.responses = s.responses ++ [r] ∧
      (i = .sesStart →
        (r = ⟨true, 0, 0⟩ ∧ events = [startEvent true]) ∨ (r = ⟨true, 1, 0⟩ ∧ events = [startEvent false])) ∧
      (i = .sesRead →
        (r.acc = false ∧ s.meas = .idle ∧ events = []) ∨
        (r = ⟨true, 1, 0⟩ ∧ events = [readEvent false]) ∨
        (∃ n, n ≠ 9 ∧ r = ⟨true, 2, 0⟩ ∧ events = [readEvent true, .req 0x62 9 n]) ∨
        (∃ F, firstBad F ≠ none ∧ r = ⟨true, 3, 0⟩ ∧ events = frameEvents F) ∨
        (∃ F, firstBad F = none ∧ r = ⟨true, 0, 0⟩ ∧ events = frameEvents F)) ∧
      (i ≠ .sesStart → i ≠ .sesRead → events = [])

/-- R164: no operation retries: at most one `TX`, one `REQ` and nine `RX`, the call that has not returned
counted among them (`pending`: log 3). (A bus command issued by itself, log 10, makes one `TX` too.) -/
def Obligations.NoOperationRetries : Prop :=
  ∀ (i : Instr) (s t : State), s.pending = none → exec i s = .next t → ∃ events, t.trace = s.trace ++ events ∧
    (events.filter fun e => e matches .tx ..).length +
      (t.pending.toList.filter fun c => c matches .tx ..).length ≤ 1 ∧
    (events.filter fun e => e matches .req ..).length +
      (t.pending.toList.filter fun c => c matches .req ..).length ≤ 1 ∧
    (events.filter fun e => e matches .rx _).length +
      (t.pending.toList.filter fun c => c matches .rx).length ≤ 9

/-! ## The register read -/

/-- R28: `RD 0` returns the STATUS view, bit by bit, is never refused and changes nothing. -/
def Obligations.StatusReadShowsTheFlags : Prop :=
  ∀ s : State, ∃ d : Data, exec (.rd 0) s = .next { s with responses := s.responses ++ [⟨true, 0, d⟩] } ∧
    d.getLsbD 0 = decide (s.meas = .measuring) ∧ d.getLsbD 1 = s.valid ∧ d.getLsbD 4 = s.illop ∧
    d.getLsbD 5 = s.pviol ∧ d.getLsbD 6 = s.noval ∧ d.getLsbD 2 = false ∧ d.getLsbD 3 = false ∧
    ∀ i : Nat, 7 ≤ i → d.getLsbD i = false

/-- R190 and R191: with a reading present, `RD 1`, `RD 2` and `RD 3` return its three registers and change
nothing. -/
def Obligations.ReadingRegistersAreReturned : Prop :=
  (∀ r : Byte, r.toNat ≤ 3 → decode (.operation (opWord 0x30 (r.zeroExtend 16))) = some (.rd r)) ∧
  (∀ (s : State) (x : Reading), s.reading = some x →
    exec (.rd 1) s = .next { s with responses := s.responses ++ [⟨true, 0, x.co2Ppm.zeroExtend 32⟩] } ∧
    exec (.rd 2) s = .next { s with responses := s.responses ++ [⟨true, 0, x.tempQ16⟩] } ∧
    exec (.rd 3) s = .next { s with responses := s.responses ++ [⟨true, 0, x.humiQ16⟩] })

/-- R192 and R206: with no reading present, `RD 1`, `RD 2` and `RD 3` are refused with `NOVAL`, and nothing else
happens. -/
def Obligations.MissingReadingIsRefused : Prop :=
  ∀ (s : State) (n : Byte), s.valid = false → n ∈ ([1, 2, 3] : List Byte) →
    ∃ (r : Response) (k : Nat), r.acc = false ∧ exec (.rd n) s = .next { s with
      noval := true, responses := s.responses ++ [r], draws := k }

/-- R92: the three register reads of `READDATA`, issued when a reading is present, return its three registers in
order and change nothing else. -/
def Obligations.ReadDataReturnsTheReading : Prop :=
  ∀ (s : State) (x : Reading) (rest : List HostInput), s.pending = none → s.reading = some x →
    s.inputs = issueAll readDataReads ++ rest →
    Sys2Proof.core.run 3 s = (.next { s with
      inputs := rest
      responses := s.responses ++
        [⟨true, 0, x.co2Ppm.zeroExtend 32⟩, ⟨true, 0, x.tempQ16⟩, ⟨true, 0, x.humiQ16⟩] } : Result)

/-! ## The bus commands -/

/-- R87 and R63: each bus command is one transmit of its two bytes, high byte first, to `0x62`, and touches no
register. That it can be issued by itself is the model's choice (log 10). -/
def Obligations.BusCommandIsOneTransmit : Prop :=
  ∀ (s : State) (ok : Bool), s.txReply = .returns ok →
    exec .busStartPeriodic s = .next { s.spendTx with trace := s.trace ++ [.tx 0x62 [0x21, 0xB1] ok] } ∧
    exec .busReadMeasurement s = .next { s.spendTx with trace := s.trace ++ [.tx 0x62 [0xEC, 0x05] ok] }

/-! ## Rules of the whole machine -/

/-- R161 and R23 (the spec's inference): the complete transition table of the session state, over every step. -/
def Obligations.SessionFollowsTheTransitionTable : Prop :=
  ∀ s t : State, step s = .next t →
    (∀ rest, s.inputs = .reset :: rest → t.meas = .idle) ∧
    (∀ rest, s.inputs = .issue (.operation 0x200000) :: rest →
      (s.txReply = .returns true → t.meas = .measuring) ∧ (s.txReply ≠ .returns true → t.meas = s.meas)) ∧
    ((∀ rest, s.inputs ≠ .reset :: rest) → (∀ rest, s.inputs ≠ .issue (.operation 0x200000) :: rest) →
      t.meas = s.meas)

/-- R22: a step that changes `CRC` took a `CRC.INIT`, a `CRC.BYTE` or a reset. -/
def Obligations.OnlyTheCrcUnitWritesTheAccumulator : Prop :=
  ∀ s t : State, step s = .next t → t.crc ≠ s.crc →
    (∃ rest, s.inputs = .reset :: rest) ∨ (∃ rest, s.inputs = .issue (.operation 0x010000) :: rest) ∨
    (∃ (b : Byte) (rest : List HostInput), s.inputs = .issue (.operation (opWord 0x02 (b.zeroExtend 16))) :: rest)

/-- R25 and R26: a step that changes the reading registers or `VALID` took a reset, or a `SES.READ` that ended in
Success and wrote all of them from one frame the transport gave, all three of whose checksums match. -/
def Obligations.OnlyASuccessfulReadWritesTheReading : Prop :=
  ∀ s t : State, step s = .next t → t.reading ≠ s.reading →
    (∃ rest, s.inputs = .reset :: rest ∧ t.valid = false) ∨
    (∃ rest F, s.inputs = .issue (.operation 0x210000) :: rest ∧ (∀ k, fieldOk F k = true) ∧
      t.reading = some (convertFrame F) ∧ t.valid = true ∧ t.trace = s.trace ++ frameEvents F ∧
      t.responses = s.responses ++ [⟨true, 0, 0⟩])

/-- R27: a fault flag that is set stays set through every step but a reset, and a reset clears all three. -/
def Obligations.FaultFlagsAreSticky : Prop :=
  ∀ s t : State, step s = .next t →
    ((∀ rest, s.inputs ≠ .reset :: rest) →
      (s.illop = true → t.illop = true) ∧ (s.pviol = true → t.pviol = true) ∧ (s.noval = true → t.noval = true)) ∧
    (∀ rest, s.inputs = .reset :: rest → t.illop = false ∧ t.pviol = false ∧ t.noval = false)

/-- R209 (the spec's inference): an operation that reports a failure writes no register; one that is refused sets
exactly one sticky flag, makes no transport call and writes nothing else. -/
def Obligations.FailuresAndRefusalsArePrecise : Prop :=
  ∀ (i : Instr) (s t : State) (r : Response), exec i s = .next t → t.responses = s.responses ++ [r] →
    (r.acc = true → r.st ≠ 0 → t.crc = s.crc ∧ t.meas = s.meas ∧ t.reading = s.reading ∧ t.illop = s.illop ∧
      t.pviol = s.pviol ∧ t.noval = s.noval ∧ r.data = 0) ∧
    (r.acc = false → ∃ (f : FaultFlag) (n : Nat),
      t = { s.setFlag f with responses := s.responses ++ [r], draws := n })

/-- R85 and R86: every operation that ends, accepted or refused, gives exactly one response; a reported failure
has `data = 0`; `SES.START` reports 0 or 1, and no operation but the two of the session reports anything but 0. -/
def Obligations.OneResponsePerOperation : Prop :=
  ∀ (s t : State) (w : OpWord) (rest : List HostInput), s.inputs = .issue (.operation w) :: rest →
    step s = .next t →
    (t.pending ≠ none → t.responses = s.responses) ∧
    (t.pending = none → ∃ r : Response, t.responses = s.responses ++ [r] ∧
      (r.acc = true → r.st ≠ 0 → r.data = 0) ∧
      (r.acc = true → w = 0x200000 → r.st = 0 ∨ r.st = 1) ∧
      (r.acc = true → w ≠ 0x200000 → w ≠ 0x210000 → r.st = 0))

/-- R211: no failure and no refusal stops the block: every instruction answers a next state in every state, and
every operation word does so whenever no operation is in progress. For an operation whose transport call never
returns, which the spec calls a hang (R169), that next state is the one in which the call is pending: the model's
choice (log 3). That a bus command by itself is an instruction is the model's choice too (log 10). -/
def Obligations.NoFailureStopsTheBlock : Prop :=
  (∀ (i : Instr) (s : State), ∃ t, exec i s = .next t) ∧
  (∀ (s : State) (w : OpWord) (rest : List HostInput), s.inputs = .issue (.operation w) :: rest →
    s.pending = none → ∃ t, step s = .next t ∧ t.inputs = rest)

/-- R33: "The block never reads `TR`": with any other trace before it, every instruction does the same and appends
the same events. -/
def Obligations.TheBlockNeverReadsTheTrace : Prop :=
  ∀ (i : Instr) (s t : State) (before : List TransportEvent), exec i s = .next t →
    exec i { s with trace := before ++ s.trace } = .next { t with trace := before ++ t.trace }

/-- The session invariant (R23, R26, R161): Measuring needs a start command the transport took, and a reading
needs Measuring. Every step keeps it, from every state that has it. -/
def Obligations.StepKeepsTheSessionHistory : Prop :=
  ∀ s t : State, s.SessionHistory → step s = .next t → t.SessionHistory

/-- The document's invariant (R25): the reading registers hold the conversion of one frame that the transport
delivered in one read and all three of whose checksums match. Every step keeps it, from every state that has
it. -/
def Obligations.StepKeepsTheReadingBacked : Prop :=
  ∀ s t : State, s.ReadingBacked → step s = .next t → t.ReadingBacked

/-- Both invariants hold after reset, and the reset state is clean. -/
def Obligations.InvariantsHoldAfterReset : Prop :=
  State.reset.SessionHistory ∧ State.reset.ReadingBacked ∧ State.reset.Clean

/-- R92: `READDATA` issues `SES.READ`; after Success it issues the three register reads and makes of their data
the value in ppm, the signed data over 65536 and the unsigned data over 65536; after a refusal or a failure it
issues none of them and has no reading. -/
def Obligations.ReadDataReadsThenFetches : Prop :=
  ∀ s t : State, s.pending = none → exec .sesRead s = .next t →
    (∀ d, t.responses = s.responses ++ [⟨true, 0, d⟩] → ∃ x : Reading, t.reading = some x ∧
      readData s = .answered
        ⟨⟨true, 0, d⟩, some ⟨x.co2Ppm, (x.tempQ16.toInt : ℚ) / 65536, (x.humiQ16.toNat : ℚ) / 65536⟩⟩
        { t with responses := t.responses ++
          [⟨true, 0, x.co2Ppm.zeroExtend 32⟩, ⟨true, 0, x.tempQ16⟩, ⟨true, 0, x.humiQ16⟩] }) ∧
    (∀ r : Response, t.responses = s.responses ++ [r] → r.acc = false ∨ r.st ≠ 0 →
      readData s = .answered ⟨r, none⟩ t)
end

