-- ==== Sys2Proof/Laws/Converter.lean ====
section
/-! SUPPORT. The 32-bit registers hold the integers the converter computes: nothing wraps
(41_parser_convert.md R142). -/

namespace Sys2Proof.Machine

theorem tempQ16_toInt (raw : Half) : (tempQ16 raw).toInt = 175 * (raw.toNat : Int) - 2949120 := by
  simp only [tempQ16, convTempQ16, tempSpan, tempOffsetQ16]
  rw [BitVec.toInt_ofInt, Int.bmod_def]
  omega

theorem humiQ16_toNat (raw : Half) : (humiQ16 raw).toNat = 100 * raw.toNat := by
  simp only [humiQ16, convHumiQ16, humiSpan, BitVec.toNat_ofNat]
  omega

end Sys2Proof.Machine
end

