-- ==== Sys2Proof/Laws/Crc.lean ====
section
/-! SUPPORT. Small lemmas of the CRC (40_crc.md R110, R111). -/

namespace Sys2Proof.Machine

@[simp] theorem crc8_nil : crc8 [] = 0xFF := rfl

/-- Folding one more byte at the end (R111). -/
theorem crc8_concat (bytes : List Byte) (b : Byte) : crc8 (bytes ++ [b]) = crc8Update (crc8 bytes) b := by
  simp [crc8]

/-- One shift iteration is linear over exclusive-or: its two branches differ by the polynomial. -/
theorem crcShift_xor (a b : Byte) : crcShift (a ^^^ b) = crcShift a ^^^ crcShift b := by
  simp only [crcShift, BitVec.msb_xor, crcPoly]
  cases a.msb <;> cases b.msb <;> simp [BitVec.shiftLeft_xor_distrib]
  · rw [BitVec.xor_assoc]
  · rw [BitVec.xor_assoc, BitVec.xor_assoc, BitVec.xor_comm (b <<< 1)]
  · rw [BitVec.xor_assoc, ← BitVec.xor_assoc 49#8, BitVec.xor_comm 49#8, BitVec.xor_assoc]; simp

end Sys2Proof.Machine
end

