-- ==== Sys2Proof/Laws/Decode.lean ====
section
/-! SUPPORT. The fields of an operation word put together from its fields (30_encoding.md R80, R83). -/

namespace Sys2Proof

/-- A bit of an operation word is a bit of `imm` below bit 16 and of `opc` above (R80). -/
theorem opWord_getLsbD (opc : Byte) (imm : Half) (i : Nat) :
    (opWord opc imm).getLsbD i = if i < 16 then imm.getLsbD i else opc.getLsbD (i - 16) :=
  BitVec.getLsbD_append

@[simp] theorem opcField_opWord (opc : Byte) (imm : Half) : opcField (opWord opc imm) = opc := by
  apply BitVec.eq_of_getLsbD_eq; intro i hi
  simp [opcField, opWord_getLsbD, hi]

@[simp] theorem immField_opWord (opc : Byte) (imm : Half) : immField (opWord opc imm) = imm := by
  apply BitVec.eq_of_getLsbD_eq; intro i hi
  simp [immField, opWord_getLsbD, hi]

@[simp] theorem immLow_opWord (opc : Byte) (imm : Half) : immLow (opWord opc imm) = imm.extractLsb' 0 8 := by
  apply BitVec.eq_of_getLsbD_eq; intro i hi
  simp [immLow, opWord_getLsbD, hi]; omega

@[simp] theorem immHigh_opWord (opc : Byte) (imm : Half) : immHigh (opWord opc imm) = imm.extractLsb' 8 8 := by
  apply BitVec.eq_of_getLsbD_eq; intro i hi
  simp [immHigh, opWord_getLsbD, hi]; omega

/-- A word is its two fields. -/
theorem opWord_fields (w : OpWord) : opWord (opcField w) (immField w) = w := by
  apply BitVec.eq_of_getLsbD_eq; intro i hi
  simp only [opcField, immField, opWord_getLsbD, BitVec.getLsbD_extractLsb']
  split
  · simp [*]
  · have h1 : 16 + (i - 16) = i := by omega
    have h2 : i - 16 < 8 := by omega
    simp [h1, h2]

end Sys2Proof
end

