-- ==== Sys2Proof/Laws/State.lean ====
section
/-! SUPPORT. What each named update of State does to each field: one lemma a field, all of them simp
lemmas, so that no later proof unfolds an update. -/

namespace Sys2Proof.Machine

variable (s : State)

/-! ### `respond` -/

@[simp] theorem State.respond_crc (st : Status) (d : Data) : (s.respond st d).crc = s.crc := rfl
@[simp] theorem State.respond_meas (st : Status) (d : Data) : (s.respond st d).meas = s.meas := rfl
@[simp] theorem State.respond_reading (st : Status) (d : Data) : (s.respond st d).reading = s.reading := rfl
@[simp] theorem State.respond_illop (st : Status) (d : Data) : (s.respond st d).illop = s.illop := rfl
@[simp] theorem State.respond_pviol (st : Status) (d : Data) : (s.respond st d).pviol = s.pviol := rfl
@[simp] theorem State.respond_noval (st : Status) (d : Data) : (s.respond st d).noval = s.noval := rfl
@[simp] theorem State.respond_trace (st : Status) (d : Data) : (s.respond st d).trace = s.trace := rfl
@[simp] theorem State.respond_responses (st : Status) (d : Data) : (s.respond st d).responses = s.responses ++ [⟨true, st.code, d⟩] := rfl
@[simp] theorem State.respond_pending (st : Status) (d : Data) : (s.respond st d).pending = s.pending := rfl
@[simp] theorem State.respond_inputs (st : Status) (d : Data) : (s.respond st d).inputs = s.inputs := rfl
@[simp] theorem State.respond_txScript (st : Status) (d : Data) : (s.respond st d).txScript = s.txScript := rfl
@[simp] theorem State.respond_reqScript (st : Status) (d : Data) : (s.respond st d).reqScript = s.reqScript := rfl
@[simp] theorem State.respond_rxScript (st : Status) (d : Data) : (s.respond st d).rxScript = s.rxScript := rfl
@[simp] theorem State.respond_draws (st : Status) (d : Data) : (s.respond st d).draws = s.draws := rfl

/-! ### `raise` -/

@[simp] theorem State.raise_crc (f : Failure) : (s.raise f).crc = s.crc := rfl
@[simp] theorem State.raise_meas (f : Failure) : (s.raise f).meas = s.meas := rfl
@[simp] theorem State.raise_reading (f : Failure) : (s.raise f).reading = s.reading := rfl
@[simp] theorem State.raise_illop (f : Failure) : (s.raise f).illop = s.illop := rfl
@[simp] theorem State.raise_pviol (f : Failure) : (s.raise f).pviol = s.pviol := rfl
@[simp] theorem State.raise_noval (f : Failure) : (s.raise f).noval = s.noval := rfl
@[simp] theorem State.raise_trace (f : Failure) : (s.raise f).trace = s.trace := rfl
@[simp] theorem State.raise_responses (f : Failure) : (s.raise f).responses = s.responses ++ [⟨true, f.status.code, 0⟩] := rfl
@[simp] theorem State.raise_pending (f : Failure) : (s.raise f).pending = s.pending := rfl
@[simp] theorem State.raise_inputs (f : Failure) : (s.raise f).inputs = s.inputs := rfl
@[simp] theorem State.raise_txScript (f : Failure) : (s.raise f).txScript = s.txScript := rfl
@[simp] theorem State.raise_reqScript (f : Failure) : (s.raise f).reqScript = s.reqScript := rfl
@[simp] theorem State.raise_rxScript (f : Failure) : (s.raise f).rxScript = s.rxScript := rfl
@[simp] theorem State.raise_draws (f : Failure) : (s.raise f).draws = s.draws := rfl

/-! ### `spendTx` -/

@[simp] theorem State.spendTx_crc : s.spendTx.crc = s.crc := rfl
@[simp] theorem State.spendTx_meas : s.spendTx.meas = s.meas := rfl
@[simp] theorem State.spendTx_reading : s.spendTx.reading = s.reading := rfl
@[simp] theorem State.spendTx_illop : s.spendTx.illop = s.illop := rfl
@[simp] theorem State.spendTx_pviol : s.spendTx.pviol = s.pviol := rfl
@[simp] theorem State.spendTx_noval : s.spendTx.noval = s.noval := rfl
@[simp] theorem State.spendTx_trace : s.spendTx.trace = s.trace := rfl
@[simp] theorem State.spendTx_responses : s.spendTx.responses = s.responses := rfl
@[simp] theorem State.spendTx_pending : s.spendTx.pending = s.pending := rfl
@[simp] theorem State.spendTx_inputs : s.spendTx.inputs = s.inputs := rfl
@[simp] theorem State.spendTx_txScript : s.spendTx.txScript = s.txScript.tail := rfl
@[simp] theorem State.spendTx_reqScript : s.spendTx.reqScript = s.reqScript := rfl
@[simp] theorem State.spendTx_rxScript : s.spendTx.rxScript = s.rxScript := rfl
@[simp] theorem State.spendTx_draws : s.spendTx.draws = drawnIf s.txScript.isEmpty s.draws := rfl

/-! ### `spendReq` -/

@[simp] theorem State.spendReq_crc : s.spendReq.crc = s.crc := rfl
@[simp] theorem State.spendReq_meas : s.spendReq.meas = s.meas := rfl
@[simp] theorem State.spendReq_reading : s.spendReq.reading = s.reading := rfl
@[simp] theorem State.spendReq_illop : s.spendReq.illop = s.illop := rfl
@[simp] theorem State.spendReq_pviol : s.spendReq.pviol = s.pviol := rfl
@[simp] theorem State.spendReq_noval : s.spendReq.noval = s.noval := rfl
@[simp] theorem State.spendReq_trace : s.spendReq.trace = s.trace := rfl
@[simp] theorem State.spendReq_responses : s.spendReq.responses = s.responses := rfl
@[simp] theorem State.spendReq_pending : s.spendReq.pending = s.pending := rfl
@[simp] theorem State.spendReq_inputs : s.spendReq.inputs = s.inputs := rfl
@[simp] theorem State.spendReq_txScript : s.spendReq.txScript = s.txScript := rfl
@[simp] theorem State.spendReq_reqScript : s.spendReq.reqScript = s.reqScript.tail := rfl
@[simp] theorem State.spendReq_rxScript : s.spendReq.rxScript = s.rxScript := rfl
@[simp] theorem State.spendReq_draws : s.spendReq.draws = drawnIf s.reqScript.isEmpty s.draws := rfl

/-! ### `spendRx` -/

@[simp] theorem State.spendRx_crc : s.spendRx.crc = s.crc := rfl
@[simp] theorem State.spendRx_meas : s.spendRx.meas = s.meas := rfl
@[simp] theorem State.spendRx_reading : s.spendRx.reading = s.reading := rfl
@[simp] theorem State.spendRx_illop : s.spendRx.illop = s.illop := rfl
@[simp] theorem State.spendRx_pviol : s.spendRx.pviol = s.pviol := rfl
@[simp] theorem State.spendRx_noval : s.spendRx.noval = s.noval := rfl
@[simp] theorem State.spendRx_trace : s.spendRx.trace = s.trace := rfl
@[simp] theorem State.spendRx_responses : s.spendRx.responses = s.responses := rfl
@[simp] theorem State.spendRx_pending : s.spendRx.pending = s.pending := rfl
@[simp] theorem State.spendRx_inputs : s.spendRx.inputs = s.inputs := rfl
@[simp] theorem State.spendRx_txScript : s.spendRx.txScript = s.txScript := rfl
@[simp] theorem State.spendRx_reqScript : s.spendRx.reqScript = s.reqScript := rfl
@[simp] theorem State.spendRx_rxScript : s.spendRx.rxScript = s.rxScript.tail := rfl
@[simp] theorem State.spendRx_draws : s.spendRx.draws = drawnIf s.rxScript.isEmpty s.draws := rfl

/-! ### `record` -/

@[simp] theorem State.record_crc (e : TransportEvent) : (s.record e).crc = s.crc := rfl
@[simp] theorem State.record_meas (e : TransportEvent) : (s.record e).meas = s.meas := rfl
@[simp] theorem State.record_reading (e : TransportEvent) : (s.record e).reading = s.reading := rfl
@[simp] theorem State.record_illop (e : TransportEvent) : (s.record e).illop = s.illop := rfl
@[simp] theorem State.record_pviol (e : TransportEvent) : (s.record e).pviol = s.pviol := rfl
@[simp] theorem State.record_noval (e : TransportEvent) : (s.record e).noval = s.noval := rfl
@[simp] theorem State.record_trace (e : TransportEvent) : (s.record e).trace = s.trace ++ [e] := rfl
@[simp] theorem State.record_responses (e : TransportEvent) : (s.record e).responses = s.responses := rfl
@[simp] theorem State.record_pending (e : TransportEvent) : (s.record e).pending = s.pending := rfl
@[simp] theorem State.record_inputs (e : TransportEvent) : (s.record e).inputs = s.inputs := rfl
@[simp] theorem State.record_txScript (e : TransportEvent) : (s.record e).txScript = s.txScript := rfl
@[simp] theorem State.record_reqScript (e : TransportEvent) : (s.record e).reqScript = s.reqScript := rfl
@[simp] theorem State.record_rxScript (e : TransportEvent) : (s.record e).rxScript = s.rxScript := rfl
@[simp] theorem State.record_draws (e : TransportEvent) : (s.record e).draws = s.draws := rfl

/-! ### `waitFor` -/

@[simp] theorem State.waitFor_crc (c : TransportCall) : (s.waitFor c).crc = s.crc := rfl
@[simp] theorem State.waitFor_meas (c : TransportCall) : (s.waitFor c).meas = s.meas := rfl
@[simp] theorem State.waitFor_reading (c : TransportCall) : (s.waitFor c).reading = s.reading := rfl
@[simp] theorem State.waitFor_illop (c : TransportCall) : (s.waitFor c).illop = s.illop := rfl
@[simp] theorem State.waitFor_pviol (c : TransportCall) : (s.waitFor c).pviol = s.pviol := rfl
@[simp] theorem State.waitFor_noval (c : TransportCall) : (s.waitFor c).noval = s.noval := rfl
@[simp] theorem State.waitFor_trace (c : TransportCall) : (s.waitFor c).trace = s.trace := rfl
@[simp] theorem State.waitFor_responses (c : TransportCall) : (s.waitFor c).responses = s.responses := rfl
@[simp] theorem State.waitFor_pending (c : TransportCall) : (s.waitFor c).pending = some c := rfl
@[simp] theorem State.waitFor_inputs (c : TransportCall) : (s.waitFor c).inputs = s.inputs := rfl
@[simp] theorem State.waitFor_txScript (c : TransportCall) : (s.waitFor c).txScript = s.txScript := rfl
@[simp] theorem State.waitFor_reqScript (c : TransportCall) : (s.waitFor c).reqScript = s.reqScript := rfl
@[simp] theorem State.waitFor_rxScript (c : TransportCall) : (s.waitFor c).rxScript = s.rxScript := rfl
@[simp] theorem State.waitFor_draws (c : TransportCall) : (s.waitFor c).draws = s.draws := rfl

/-! ### `spendRxs`: only the environment of `RX` changes -/

@[simp] theorem State.spendRxs_crc (k : Nat) : (State.spendRxs k s).crc = s.crc := by
  induction k <;> simp_all [State.spendRxs]
@[simp] theorem State.spendRxs_meas (k : Nat) : (State.spendRxs k s).meas = s.meas := by
  induction k <;> simp_all [State.spendRxs]
@[simp] theorem State.spendRxs_reading (k : Nat) : (State.spendRxs k s).reading = s.reading := by
  induction k <;> simp_all [State.spendRxs]
@[simp] theorem State.spendRxs_illop (k : Nat) : (State.spendRxs k s).illop = s.illop := by
  induction k <;> simp_all [State.spendRxs]
@[simp] theorem State.spendRxs_pviol (k : Nat) : (State.spendRxs k s).pviol = s.pviol := by
  induction k <;> simp_all [State.spendRxs]
@[simp] theorem State.spendRxs_noval (k : Nat) : (State.spendRxs k s).noval = s.noval := by
  induction k <;> simp_all [State.spendRxs]
@[simp] theorem State.spendRxs_trace (k : Nat) : (State.spendRxs k s).trace = s.trace := by
  induction k <;> simp_all [State.spendRxs]
@[simp] theorem State.spendRxs_responses (k : Nat) : (State.spendRxs k s).responses = s.responses := by
  induction k <;> simp_all [State.spendRxs]
@[simp] theorem State.spendRxs_pending (k : Nat) : (State.spendRxs k s).pending = s.pending := by
  induction k <;> simp_all [State.spendRxs]
@[simp] theorem State.spendRxs_inputs (k : Nat) : (State.spendRxs k s).inputs = s.inputs := by
  induction k <;> simp_all [State.spendRxs]
@[simp] theorem State.spendRxs_txScript (k : Nat) : (State.spendRxs k s).txScript = s.txScript := by
  induction k <;> simp_all [State.spendRxs]
@[simp] theorem State.spendRxs_reqScript (k : Nat) : (State.spendRxs k s).reqScript = s.reqScript := by
  induction k <;> simp_all [State.spendRxs]

/-! ### `refuse`: one flag, one response, one free value -/

@[simp] theorem State.refuse_crc (g : FaultFlag) : (s.refuse g).crc = s.crc := by cases g <;> rfl
@[simp] theorem State.refuse_meas (g : FaultFlag) : (s.refuse g).meas = s.meas := by cases g <;> rfl
@[simp] theorem State.refuse_reading (g : FaultFlag) : (s.refuse g).reading = s.reading := by cases g <;> rfl
@[simp] theorem State.refuse_trace (g : FaultFlag) : (s.refuse g).trace = s.trace := by cases g <;> rfl
@[simp] theorem State.refuse_pending (g : FaultFlag) : (s.refuse g).pending = s.pending := by cases g <;> rfl
@[simp] theorem State.refuse_inputs (g : FaultFlag) : (s.refuse g).inputs = s.inputs := by cases g <;> rfl
@[simp] theorem State.refuse_txScript (g : FaultFlag) : (s.refuse g).txScript = s.txScript := by cases g <;> rfl
@[simp] theorem State.refuse_reqScript (g : FaultFlag) : (s.refuse g).reqScript = s.reqScript := by cases g <;> rfl
@[simp] theorem State.refuse_rxScript (g : FaultFlag) : (s.refuse g).rxScript = s.rxScript := by cases g <;> rfl
@[simp] theorem State.refuse_draws (g : FaultFlag) : (s.refuse g).draws = s.draws + 1 := by cases g <;> rfl
@[simp] theorem State.refuse_responses (g : FaultFlag) :
    (s.refuse g).responses = s.responses ++ [⟨false, Config.refusedSt s.draws, Config.refusedData s.draws⟩] := by
  cases g <;> rfl
@[simp] theorem State.refuse_illop (g : FaultFlag) : (s.refuse g).illop = (s.illop || g == .illop) := by
  cases g <;> simp [State.refuse, State.setFlag]
@[simp] theorem State.refuse_pviol (g : FaultFlag) : (s.refuse g).pviol = (s.pviol || g == .pviol) := by
  cases g <;> simp [State.refuse, State.setFlag]
@[simp] theorem State.refuse_noval (g : FaultFlag) : (s.refuse g).noval = (s.noval || g == .noval) := by
  cases g <;> simp [State.refuse, State.setFlag]

/-! ### `applyReset`: the block at its reset values, the environment kept -/

@[simp] theorem State.applyReset_crc : s.applyReset.crc = 0xFF := rfl
@[simp] theorem State.applyReset_meas : s.applyReset.meas = .idle := rfl
@[simp] theorem State.applyReset_reading : s.applyReset.reading = none := rfl
@[simp] theorem State.applyReset_illop : s.applyReset.illop = false := rfl
@[simp] theorem State.applyReset_pviol : s.applyReset.pviol = false := rfl
@[simp] theorem State.applyReset_noval : s.applyReset.noval = false := rfl
@[simp] theorem State.applyReset_trace : s.applyReset.trace = [] := rfl
@[simp] theorem State.applyReset_responses : s.applyReset.responses = [] := rfl
@[simp] theorem State.applyReset_pending : s.applyReset.pending = none := rfl
@[simp] theorem State.applyReset_inputs : s.applyReset.inputs = s.inputs.tail := rfl
@[simp] theorem State.applyReset_txScript : s.applyReset.txScript = s.txScript := rfl
@[simp] theorem State.applyReset_reqScript : s.applyReset.reqScript = s.reqScript := rfl
@[simp] theorem State.applyReset_rxScript : s.applyReset.rxScript = s.rxScript := rfl
@[simp] theorem State.applyReset_draws : s.applyReset.draws = s.draws := rfl

/-! ### `spendRead` -/

@[simp] theorem State.spendRead_crc : s.spendRead.crc = s.crc := by simp [State.spendRead]
@[simp] theorem State.spendRead_meas : s.spendRead.meas = s.meas := by simp [State.spendRead]
@[simp] theorem State.spendRead_reading : s.spendRead.reading = s.reading := by simp [State.spendRead]
@[simp] theorem State.spendRead_illop : s.spendRead.illop = s.illop := by simp [State.spendRead]
@[simp] theorem State.spendRead_pviol : s.spendRead.pviol = s.pviol := by simp [State.spendRead]
@[simp] theorem State.spendRead_noval : s.spendRead.noval = s.noval := by simp [State.spendRead]
@[simp] theorem State.spendRead_trace : s.spendRead.trace = s.trace := by simp [State.spendRead]
@[simp] theorem State.spendRead_responses : s.spendRead.responses = s.responses := by simp [State.spendRead]
@[simp] theorem State.spendRead_pending : s.spendRead.pending = s.pending := by simp [State.spendRead]
@[simp] theorem State.spendRead_inputs : s.spendRead.inputs = s.inputs := by simp [State.spendRead]

end Sys2Proof.Machine
end

