-- ==== Sys2Proof/Laws/Ops.lean ====
section
/-! SUPPORT. One spec lemma per shared operation of Machine/Ops.lean: what a transport call, a drain and
taking the host's input come to. -/

namespace Sys2Proof.Machine

/-! ### The transport calls -/

theorem tx_of_returns {s : State} {ok : Bool} (h : s.txReply = .returns ok) (addr : Addr7) (bytes : List Byte) :
    tx addr bytes s = .returned ok (s.spendTx.record (.tx addr bytes ok)) := by simp [tx, h]

theorem tx_of_never {s : State} (h : s.txReply = .never) (addr : Addr7) (bytes : List Byte) :
    tx addr bytes s = .hung (s.spendTx.waitFor (.tx addr bytes)) := by simp [tx, h]

theorem req_of_returns {s : State} {n : Nat} (h : s.reqReply = .returns n) (addr : Addr7) (count : Nat) :
    req addr count s = .returned n (s.spendReq.record (.req addr count n)) := by simp [req, h]

theorem req_of_never {s : State} (h : s.reqReply = .never) (addr : Addr7) (count : Nat) :
    req addr count s = .hung (s.spendReq.waitFor (.req addr count)) := by simp [req, h]

theorem rx_of_returns {s : State} {b : Byte} (h : s.rxReply = .returns b) :
    rx s = .returned b (s.spendRx.record (.rx b)) := by simp [rx, h]

theorem rx_of_never {s : State} (h : s.rxReply = .never) : rx s = .hung (s.spendRx.waitFor .rx) := by
  simp [rx, h]

/-! ### Replies depend on the scripts and the counter alone -/

@[simp] theorem State.record_txReply (s : State) (e : TransportEvent) : (s.record e).txReply = s.txReply := rfl
@[simp] theorem State.record_reqReply (s : State) (e : TransportEvent) : (s.record e).reqReply = s.reqReply := rfl
@[simp] theorem State.record_rxReply (s : State) (e : TransportEvent) : (s.record e).rxReply = s.rxReply := rfl

/-- Recording an event and spending `RX` replies commute. -/
theorem State.spendRxs_record (s : State) (e : TransportEvent) (k : Nat) :
    State.spendRxs k (s.record e) = (State.spendRxs k s).record e := by
  induction k with
  | zero => rfl
  | succ k ih => simp [State.spendRxs, ih]; rfl

/-! ### Draining -/

/-- `s` with these bytes received. -/
def State.received (bytes : List Byte) (s : State) : State :=
  { s with trace := s.trace ++ bytes.map .rx }

/-- Everything a drain can do: return the bytes the transport gave, in order, with one event each; or wait
in its `j`-th call, with one event for each call before it. -/
theorem drain_cases (k : Nat) (s : State) :
    (∃ v : Vector Byte k, (∀ i : Fin k, (State.spendRxs i.val s).rxReply = .returns v[i]) ∧
      drain k s = .returned v ((State.spendRxs k s).received v.toList)) ∨
    (∃ j < k, ∃ bytes : List Byte, bytes.length = j ∧
      (∀ i (h : i < bytes.length), (State.spendRxs i s).rxReply = .returns bytes[i]) ∧
      (State.spendRxs j s).rxReply = .never ∧
      drain k s = .hung (((State.spendRxs (j + 1) s).received bytes).waitFor .rx)) := by
  induction k with
  | zero =>
    exact .inl ⟨#v[], fun i => i.elim0, by simp [drain, State.received, State.spendRxs]⟩
  | succ k ih =>
    rcases ih with ⟨v, hv, hd⟩ | ⟨j, hj, bytes, hl, hb, hn, hd⟩
    · cases hr : (State.spendRxs k s).rxReply with
      | never =>
        have hr' : (State.received v.toList (State.spendRxs k s)).rxReply = .never := hr
        refine .inr ⟨k, by omega, v.toList, by simp, fun i h => ?_, hr, ?_⟩
        · simpa using hv ⟨i, by simpa using h⟩
        · simp only [drain, hd, rx_of_never hr', State.spendRxs]
          rfl
      | returns b =>
        have hr' : (State.received v.toList (State.spendRxs k s)).rxReply = .returns b := hr
        refine .inl ⟨v.push b, fun i => ?_, ?_⟩
        · by_cases h : i.val < k
          · simpa [Vector.getElem_push, h] using hv ⟨i.val, h⟩
          · have hi : i.val = k := by omega
            simp [hi, hr]
        · simp only [drain, hd, rx_of_returns hr', State.spendRxs]
          have hl : (v.push b).toList = v.toList ++ [b] := by cases v; simp [Vector.push, Vector.toList]
          simp [State.received, State.record, State.spendRx, hl]
    · exact .inr ⟨j, by omega, bytes, hl, hb, hn, by simp [drain, hd]⟩

/-- When the transport gives the nine bytes of `F`, draining returns `F`. -/
theorem drain_of_delivers {s : State} {F : Frame} (h : s.delivers F) :
    drain 9 s = .returned F ((State.spendRxs 9 s).received F.toList) := by
  rcases drain_cases 9 s with ⟨v, hv, hd⟩ | ⟨j, hj, _, _, _, hn, _⟩
  · have : v = F := by
      refine Vector.ext fun i hi => ?_
      have h1 := hv ⟨i, hi⟩
      have h2 := h ⟨i, hi⟩
      simp only [h2, Reply.returns.injEq] at h1
      exact h1.symm
    exact this ▸ hd
  · have := h ⟨j, hj⟩
    simp only [hn] at this
    exact absurd this (by simp)

/-- When the transport gives fewer than `k` bytes and then never returns, draining waits in the next call. -/
theorem drain_of_silence {k : Nat} {s : State} {bytes : List Byte} (hl : bytes.length < k)
    (h : ∀ i (hi : i < bytes.length), (State.spendRxs i s).rxReply = .returns bytes[i])
    (hn : (State.spendRxs bytes.length s).rxReply = .never) :
    drain k s = .hung (((State.spendRxs (bytes.length + 1) s).received bytes).waitFor .rx) := by
  rcases drain_cases k s with ⟨v, hv, _⟩ | ⟨j, hj, bs, hlen, hb, hnj, hd⟩
  · have := hv ⟨bytes.length, hl⟩
    simp only [hn] at this
    exact absurd this (by simp)
  · have hlt : ¬ j < bytes.length := fun c => by have := h j c; rw [hnj] at this; cases this
    have hgt : ¬ bytes.length < j := fun c => by have := hb bytes.length (by omega); rw [hn] at this; cases this
    have : bs = bytes := List.ext_getElem (by omega) fun i h1 h2 => by
      have a := hb i h1
      rw [h i h2] at a
      exact (Reply.returns.inj a).symm
    subst this
    rw [hd, hlen]

/-! ### The host's next input -/

theorem takeInput_of_nil {s : State} (h : s.inputs = []) : s.takeInput = .quiet := by
  simp [State.takeInput, h]

theorem takeInput_of_reset {s : State} {rest : List HostInput} (h : s.inputs = .reset :: rest) :
    s.takeInput = .reset := by simp [State.takeInput, h]

theorem takeInput_of_early {s : State} {p : PortWord} {rest : List HostInput} {c : TransportCall}
    (h : s.inputs = .issue p :: rest) (hp : s.pending = some c) : s.takeInput = .early := by
  simp [State.takeInput, h, hp]

theorem takeInput_of_issue {s : State} {p : PortWord} {rest : List HostInput}
    (h : s.inputs = .issue p :: rest) (hp : s.pending = none) :
    s.takeInput = .run p { s with inputs := rest } := by simp [State.takeInput, h, hp]

end Sys2Proof.Machine
end

