-- ==== Sys2Proof/Laws/RegisterRead.lean ====
section
/-! SUPPORT. Everything `RD` can do, said once (43_register_read.md R190, R192). -/

namespace Sys2Proof.Machine

@[simp] theorem regOfNumber_status : regOfNumber 0#8 = some .status := rfl
@[simp] theorem regOfNumber_co2Ppm : regOfNumber 1#8 = some .co2Ppm := rfl
@[simp] theorem regOfNumber_tempQ16 : regOfNumber 2#8 = some .tempQ16 := rfl
@[simp] theorem regOfNumber_humiQ16 : regOfNumber 3#8 = some .humiQ16 := rfl

theorem regOfNumber_of_gt {r : Byte} (h : 3 < r.toNat) : regOfNumber r = none := by
  simp only [regOfNumber]
  repeat (rw [if_neg (by rintro rfl; simp at h)])

/-- `RD` responds once, or refuses with one of two flags. -/
theorem readRegister_cases (r : Byte) (s : State) :
    (∃ d, readRegister r s = s.respond .success d) ∨ readRegister r s = s.refuse .noval ∨
    readRegister r s = s.refuse .illop := by
  unfold readRegister readReading
  cases regOfNumber r with
  | none => simp
  | some n => cases n <;> cases s.reading <;> simp <;> exact .inl ⟨_, rfl⟩

end Sys2Proof.Machine
end

