-- ==== Sys2Proof/Laws/Session.lean ====
section
/-! SUPPORT. Everything the session operations and the bus commands can do, said once (42_session.md R162,
R163, R170). -/

namespace Sys2Proof.Machine

@[simp] theorem commandBytes_cmdStart : commandBytes cmdStart = [0x21, 0xB1] := by decide
@[simp] theorem commandBytes_cmdRead : commandBytes cmdRead = [0xEC, 0x05] := by decide

theorem sendStart_of_returns {s : State} {ok : Bool} (h : s.txReply = .returns ok) :
    sendCommand cmdStart s = .returned ok (s.spendTx.record (startEvent ok)) := by
  rw [sendCommand, tx_of_returns h, commandBytes_cmdStart]; rfl

theorem sendRead_of_returns {s : State} {ok : Bool} (h : s.txReply = .returns ok) :
    sendCommand cmdRead s = .returned ok (s.spendTx.record (readEvent ok)) := by
  rw [sendCommand, tx_of_returns h, commandBytes_cmdRead]; rfl

theorem sendCommand_of_never {s : State} (h : s.txReply = .never) (c : Half) :
    sendCommand c s = .hung (s.spendTx.waitFor (.tx periphAddr (commandBytes c))) := by
  rw [sendCommand, tx_of_never h]

/-- Everything `SES.START` can do. -/
theorem sesStart_cases (s : State) :
    (s.txReply = .returns true ∧
      sesStart s = State.respond .success 0 { s.spendTx.record (startEvent true) with meas := .measuring }) ∨
    (s.txReply = .returns false ∧ sesStart s = (s.spendTx.record (startEvent false)).raise .transmitFailure) ∨
    (s.txReply = .never ∧ sesStart s = s.spendTx.waitFor (.tx 0x62 [0x21, 0xB1])) := by
  cases h : s.txReply with
  | never => exact .inr (.inr ⟨rfl, by simp [sesStart, sendCommand_of_never h]; rfl⟩)
  | returns ok =>
    cases ok with
    | true => exact .inl ⟨rfl, by simp [sesStart, sendStart_of_returns h]⟩
    | false => exact .inr (.inl ⟨rfl, by simp [sesStart, sendStart_of_returns h]⟩)

/-- The state after a read took the nine bytes of `F`, before it delivers. -/
def State.afterFrame (F : Frame) (s : State) : State := { s.spendRead with trace := s.trace ++ frameEvents F }

/-- Everything `SES.READ` can do. -/
theorem sesRead_cases (s : State) :
    (s.meas = .idle ∧ sesRead s = s.refuse .pviol) ∨
    (s.meas = .measuring ∧ (
      (s.txReply = .returns false ∧ sesRead s = (s.spendTx.record (readEvent false)).raise .transmitFailure) ∨
      (s.txReply = .never ∧ sesRead s = s.spendTx.waitFor (.tx 0x62 [0xEC, 0x05])) ∨
      (s.txReply = .returns true ∧ s.spendTx.reqReply = .never ∧
        sesRead s = ((s.spendTx.spendReq.record (readEvent true)).waitFor (.req 0x62 9))) ∨
      (s.txReply = .returns true ∧ ∃ n, n ≠ 9 ∧ s.spendTx.reqReply = .returns n ∧
        sesRead s = (((s.spendTx.spendReq.record (readEvent true)).record (.req 0x62 9 n)).raise .frameLengthError)) ∨
      (s.txReply = .returns true ∧ s.spendTx.reqReply = .returns 9 ∧ ∃ j < 9, ∃ bytes : List Byte,
        bytes.length = j ∧
        (∀ i (h : i < bytes.length), (State.spendRxs i s.spendTx.spendReq).rxReply = .returns bytes[i]) ∧
        (State.spendRxs j s.spendTx.spendReq).rxReply = .never ∧
        sesRead s = { State.spendRxs (j + 1) s.spendTx.spendReq with
          trace := s.trace ++ readEvent true :: .req 0x62 9 9 :: bytes.map .rx, pending := some .rx }) ∨
      (s.txReply = .returns true ∧ s.spendTx.reqReply = .returns 9 ∧ ∃ F, s.spendTx.spendReq.delivers F ∧
        sesRead s = deliver F (s.afterFrame F)))) := by
  cases hm : s.meas with
  | idle => exact .inl ⟨rfl, by simp [sesRead, hm]⟩
  | measuring =>
    refine .inr ⟨rfl, ?_⟩
    cases ht : s.txReply with
    | never => exact .inr (.inl ⟨rfl, by simp [sesRead, hm, sendCommand_of_never ht]; rfl⟩)
    | returns ok =>
      cases ok with
      | false => exact .inl ⟨rfl, by simp [sesRead, hm, sendRead_of_returns ht]⟩
      | true =>
        have hfetch : sesRead s = fetchFrame (s.spendTx.record (readEvent true)) := by
          simp [sesRead, hm, sendRead_of_returns ht]
        refine .inr (.inr ?_)
        cases hr : s.spendTx.reqReply with
        | never =>
          have hr' : (s.spendTx.record (readEvent true)).reqReply = .never := hr
          exact .inl ⟨rfl, rfl, by simp [hfetch, fetchFrame, req_of_never hr']; rfl⟩
        | returns n =>
          have hr' : (s.spendTx.record (readEvent true)).reqReply = .returns n := hr
          by_cases hn : n = 9
          · subst hn
            refine .inr (.inr ?_)
            let u := (s.spendTx.spendReq.record (readEvent true)).record (.req 0x62 9 9)
            have hu : fetchFrame (s.spendTx.record (readEvent true)) =
                match drain 9 u with
                | .hung s'' => s''
                | .returned F s'' => deliver F s'' := by
              simp [fetchFrame, req_of_returns hr', lenOk, frameLen]; rfl
            have hsp : ∀ k, State.spendRxs k u = ((State.spendRxs k s.spendTx.spendReq).record (readEvent true)).record
                (.req 0x62 9 9) := by
              intro k; simp [u, State.spendRxs_record]
            rcases drain_cases 9 u with ⟨v, hv, hd⟩ | ⟨j, hj, bytes, hl, hb, hn, hd⟩
            · refine .inr ⟨rfl, rfl, v, fun i => ?_, ?_⟩
              · simpa [hsp] using hv i
              · rw [hfetch, hu, hd, hsp]
                simp [State.afterFrame, State.received, State.record, State.spendRead, frameEvents]
            · refine .inl ⟨rfl, rfl, j, hj, bytes, hl, fun i h => by simpa [hsp] using hb i h,
                by simpa [hsp] using hn, ?_⟩
              rw [hfetch, hu, hd, hsp]
              simp [State.received, State.record, State.waitFor]
          · exact .inr (.inl ⟨rfl, n, hn, rfl, by
              simp [hfetch, fetchFrame, req_of_returns hr', lenOk, frameLen, hn]; rfl⟩)

/-- Delivering a frame some checksum of which fails. -/
theorem deliver_of_bad {F : Frame} (h : firstBad F ≠ none) (s : State) : deliver F s = s.raise .checksumError := by
  cases hb : firstBad F with
  | none => exact absurd hb h
  | some k => simp [deliver, parseFrame, hb]

/-- Delivering a frame all of whose checksums match. -/
theorem deliver_of_good {F : Frame} (h : firstBad F = none) (s : State) :
    deliver F s = State.respond .success 0 { s with reading := some (convertFrame F) } := by
  simp [deliver, parseFrame, h]

/-- Everything a bus command alone can do. -/
theorem transmitAlone_cases (c : Half) (s : State) :
    (∃ ok, s.txReply = .returns ok ∧ transmitAlone c s = s.spendTx.record (.tx periphAddr (commandBytes c) ok)) ∨
    (s.txReply = .never ∧ transmitAlone c s = s.spendTx.waitFor (.tx periphAddr (commandBytes c))) := by
  cases h : s.txReply with
  | never => exact .inr ⟨rfl, by simp [transmitAlone, sendCommand_of_never h]⟩
  | returns ok => exact .inl ⟨ok, rfl, by simp [transmitAlone, sendCommand, tx_of_returns h]⟩

end Sys2Proof.Machine
end

