-- ==== Sys2Proof/Laws/Exec.lean ====
section
/-! SUPPORT. Everything an instruction can do, said once: `Effect i s t` lists the ways in which `exec i s`
answers `next t`, and `exec_effect` says there is no other. A proof about all instructions is a case analysis
on it. -/

namespace Sys2Proof.Machine

/-- The ways instruction `i` can take state `s` to the next state. -/
inductive Effect (i : Instr) (s : State) : State → Prop where
  /-- `CRC.INIT` loads the initial value. -/
  | crcInit : i = .crcInit → Effect i s { s with crc := 0xFF, responses := s.responses ++ [⟨true, 0, 0⟩] }
  /-- `CRC.BYTE` folds its byte. -/
  | crcByte (b : Byte) : i = .crcByte b →
      Effect i s { s with crc := crc8Update s.crc b, responses := s.responses ++ [⟨true, 0, 0⟩] }
  /-- An operation that only responds: `CRC.READ`, `CNV.*`, `RD`. -/
  | reads (d : Data) : i ≠ .crcInit → (∀ b, i ≠ .crcByte b) → i ≠ .sesStart → i ≠ .sesRead →
      i ≠ .busStartPeriodic → i ≠ .busReadMeasurement →
      Effect i s { s with responses := s.responses ++ [⟨true, 0, d⟩] }
  /-- A refused register read. -/
  | refusedRd (r : Byte) (f : FaultFlag) : i = .rd r → Effect i s (s.refuse f)
  /-- `SES.READ` refused in Idle. -/
  | refusedRead : i = .sesRead → s.meas = .idle → Effect i s (s.refuse .pviol)
  /-- `SES.START` whose transmit succeeded. -/
  | started : i = .sesStart → s.txReply = .returns true →
      Effect i s { s.spendTx with
        meas := .measuring, trace := s.trace ++ [startEvent true], responses := s.responses ++ [⟨true, 0, 0⟩] }
  /-- `SES.START` whose transmit failed. -/
  | startFailed : i = .sesStart → s.txReply = .returns false →
      Effect i s { s.spendTx with trace := s.trace ++ [startEvent false], responses := s.responses ++ [⟨true, 1, 0⟩] }
  /-- `SES.READ` whose transmit failed. -/
  | readFailed : i = .sesRead → s.meas = .measuring → s.txReply = .returns false →
      Effect i s { s.spendTx with trace := s.trace ++ [readEvent false], responses := s.responses ++ [⟨true, 1, 0⟩] }
  /-- A read answered with a wrong length. -/
  | wrongLength (n : Nat) : i = .sesRead → s.meas = .measuring → s.txReply = .returns true → n ≠ 9 →
      Effect i s { s.spendTx.spendReq with
        trace := s.trace ++ [readEvent true, .req 0x62 9 n], responses := s.responses ++ [⟨true, 2, 0⟩] }
  /-- A read of a frame that does not validate. -/
  | badFrame (F : Frame) : i = .sesRead → s.meas = .measuring → s.txReply = .returns true → firstBad F ≠ none →
      Effect i s { s.spendRead with
        trace := s.trace ++ frameEvents F, responses := s.responses ++ [⟨true, 3, 0⟩] }
  /-- A read of a frame that validates. -/
  | goodFrame (F : Frame) : i = .sesRead → s.meas = .measuring → s.txReply = .returns true → firstBad F = none →
      Effect i s { s.spendRead with
        reading := some (convertFrame F), trace := s.trace ++ frameEvents F
        responses := s.responses ++ [⟨true, 0, 0⟩] }
  /-- A transmit that never returned. -/
  | waitsInTx (addr : Addr7) (bytes : List Byte) : i = .sesStart ∨ i = .sesRead ∨ i = .busStartPeriodic ∨
      i = .busReadMeasurement → s.txReply = .never →
      Effect i s { s.spendTx with pending := some (.tx addr bytes) }
  /-- A request that never returned. -/
  | waitsInReq (addr : Addr7) (count : Nat) : i = .sesRead → s.meas = .measuring → s.txReply = .returns true →
      Effect i s { s.spendTx.spendReq with
        trace := s.trace ++ [readEvent true], pending := some (.req addr count) }
  /-- A receive that never returned, after fewer than nine bytes. -/
  | waitsInRx (bytes : List Byte) : i = .sesRead → s.meas = .measuring → s.txReply = .returns true →
      bytes.length < 9 →
      Effect i s { State.spendRxs (bytes.length + 1) s.spendTx.spendReq with
        trace := s.trace ++ readEvent true :: .req 0x62 9 9 :: bytes.map .rx, pending := some .rx }
  /-- A bus command issued by itself. -/
  | sentAlone (e : TransportEvent) : i = .busStartPeriodic ∨ i = .busReadMeasurement →
      (∃ ok, s.txReply = .returns ok ∧ (e = startEvent ok ∨ e = readEvent ok)) →
      Effect i s { s.spendTx with trace := s.trace ++ [e] }

/-- Whatever `exec` answers is one of the effects. -/
theorem exec_effect {i : Instr} {s t : State} (h : exec i s = .next t) : Effect i s t := by
  cases i with
  | crcInit => cases h; exact .crcInit rfl
  | crcByte b => cases h; exact .crcByte b rfl
  | crcRead => cases h; exact .reads _ (by simp) (by simp) (by simp) (by simp) (by simp) (by simp)
  | cnvCo2 => cases h; exact .reads _ (by simp) (by simp) (by simp) (by simp) (by simp) (by simp)
  | cnvTemp => cases h; exact .reads _ (by simp) (by simp) (by simp) (by simp) (by simp) (by simp)
  | cnvHumi => cases h; exact .reads _ (by simp) (by simp) (by simp) (by simp) (by simp) (by simp)
  | rd r =>
    cases h
    rcases readRegister_cases r s with ⟨d, e⟩ | e | e <;> rw [e]
    · exact .reads d (by simp) (by simp) (by simp) (by simp) (by simp) (by simp)
    · exact .refusedRd r _ rfl
    · exact .refusedRd r _ rfl
  | sesStart =>
    cases h
    rcases sesStart_cases s with ⟨a, e⟩ | ⟨a, e⟩ | ⟨a, e⟩ <;> rw [e]
    · exact .started rfl a
    · exact .startFailed rfl a
    · exact .waitsInTx _ _ (by simp) a
  | sesRead =>
    cases h
    rcases sesRead_cases s with ⟨a, e⟩ | ⟨m, ⟨a, e⟩ | ⟨a, e⟩ | ⟨a, _, e⟩ | ⟨a, n, hn, _, e⟩ |
      ⟨a, _, j, hj, bytes, hl, _, _, e⟩ | ⟨a, _, F, _, e⟩⟩ <;> rw [e]
    · exact .refusedRead rfl a
    · exact .readFailed rfl m a
    · exact .waitsInTx _ _ (by simp) a
    · exact .waitsInReq _ _ rfl m a
    · have : ((s.spendTx.spendReq.record (readEvent true)).record (.req 0x62 9 n)).raise .frameLengthError =
          { s.spendTx.spendReq with
            trace := s.trace ++ [readEvent true, .req 0x62 9 n], responses := s.responses ++ [⟨true, 2, 0⟩] } := by
        simp [State.raise, State.respond, State.record, Failure.status, Status.code]
      rw [this]; exact .wrongLength n rfl m a hn
    · subst hl; exact .waitsInRx bytes rfl m a hj
    · cases hb : firstBad F with
      | none =>
        rw [deliver_of_good hb]
        have : State.respond .success 0 { s.afterFrame F with reading := some (convertFrame F) } =
            { s.spendRead with
              reading := some (convertFrame F), trace := s.trace ++ frameEvents F
              responses := s.responses ++ [⟨true, 0, 0⟩] } := by
          simp [State.respond, State.afterFrame, Status.code]
        rw [this]; exact .goodFrame F rfl m a hb
      | some k =>
        rw [deliver_of_bad (by simp [hb])]
        have : (s.afterFrame F).raise .checksumError =
            { s.spendRead with
              trace := s.trace ++ frameEvents F, responses := s.responses ++ [⟨true, 3, 0⟩] } := by
          simp [State.raise, State.respond, State.afterFrame, Failure.status, Status.code]
        rw [this]; exact .badFrame F rfl m a (by simp [hb])
  | busStartPeriodic =>
    cases h
    rcases transmitAlone_cases cmdStart s with ⟨ok, a, e⟩ | ⟨a, e⟩ <;> rw [e]
    · exact .sentAlone _ (.inl rfl) ⟨ok, a, .inl (by rw [commandBytes_cmdStart]; rfl)⟩
    · exact .waitsInTx _ _ (by simp) a
  | busReadMeasurement =>
    cases h
    rcases transmitAlone_cases cmdRead s with ⟨ok, a, e⟩ | ⟨a, e⟩ <;> rw [e]
    · exact .sentAlone _ (.inr rfl) ⟨ok, a, .inr (by rw [commandBytes_cmdRead]; rfl)⟩
    · exact .waitsInTx _ _ (by simp) a

/-- Every instruction's host inputs stay as they were: only `step` takes one. -/
theorem Effect.inputs_eq {i : Instr} {s t : State} (h : Effect i s t) : t.inputs = s.inputs := by
  cases h <;> simp

end Sys2Proof.Machine
end

