-- ==== Sys2Proof/Laws/Parser.lean ====
section
/-! SUPPORT. The frame parser's functions by their bytes (41_parser_convert.md R131, R134). -/

namespace Sys2Proof.Machine

/-- The payload of sub-field `k`, read from the frame buffer (R163 step 5: `MemRead(3k, 2)`). -/
theorem memRead_payload (F : Frame) (k : Fin 3) :
    memRead F (3 * k.val) 2 = some [payloadHigh F k, payloadLow F k] := by
  rw [memRead, if_pos (by omega), List.drop_eq_getElem_cons (by simp; omega),
    List.drop_eq_getElem_cons (by simp; omega)]
  simp [payloadHigh, payloadLow, payloadOffset]

/-- No sub-field is bad exactly when all three validate. -/
theorem firstBad_eq_none (F : Frame) : firstBad F = none ↔ ∀ k : Fin 3, fieldOk F k = true := by
  simp [firstBad, Fin.forall_fin_succ]

/-- A frame validates or it does not parse. -/
theorem parseFrame_cases (F : Frame) :
    (firstBad F = none ∧ parseFrame F = .success (convertFrame F)) ∨
    (firstBad F ≠ none ∧ parseFrame F = .checksumError) := by
  unfold parseFrame
  cases firstBad F <;> simp

end Sys2Proof.Machine
end

