-- ==== Sys2Proof/Laws/PerInstr.lean ====
section
/-! SUPPORT. The family EncodedRow: the word of each well-formed instruction lies in its own row of the
opcode table (30_encoding.md R82, R87). -/

namespace Sys2Proof.Laws.EncodedRow

open Sys2Proof

/-- The encoded word selects the row of the instruction's mnemonic. -/
def Statement (i : Instr) : Prop :=
  i.wellFormed = true →
    match encode i with
    | .operation w => ∃ row ∈ opcodeMap, row.mnemonic = i.mnemonic ∧ row.selectedBy w = true
    | .busCommand c => (i = .busStartPeriodic ∧ c = 0x21B1) ∨ (i = .busReadMeasurement ∧ c = 0xEC05)

/-- Format H: the mask keeps `opc`. -/
theorem opWord_and_opc (opc : Byte) (imm : Half) : opWord opc imm &&& 0xFF0000 = opWord opc 0 := by
  apply BitVec.eq_of_getLsbD_eq
  intro i hi
  rw [BitVec.getLsbD_and, opWord_getLsbD, opWord_getLsbD]
  have hm : ∀ j : Fin 24, (0xFF0000 : OpWord).getLsbD j.val = decide (16 ≤ j.val) := by decide
  rw [hm ⟨i, hi⟩]
  by_cases h : i < 16
  · simp [h]
  · simp [h]; omega

/-- Format B: the mask keeps `opc` and the upper half of `imm`, which is zero. -/
theorem opWord_and_opcHigh (opc b : Byte) : opWord opc (b.zeroExtend 16) &&& 0xFFFF00 = opWord opc 0 := by
  apply BitVec.eq_of_getLsbD_eq
  intro i hi
  rw [BitVec.getLsbD_and, opWord_getLsbD, opWord_getLsbD]
  have hm : ∀ j : Fin 24, (0xFFFF00 : OpWord).getLsbD j.val = decide (8 ≤ j.val) := by decide
  rw [hm ⟨i, hi⟩]
  by_cases h : i < 16
  · by_cases h8 : i < 8
    · simp [h, show ¬ 8 ≤ i by omega]
    · simp [h, show 8 ≤ i by omega]
  · simp [h]; omega

theorem crcInit : Statement .crcInit := fun _ => ⟨⟨"CRC.INIT", 0x010000, 0xFFFFFF⟩, by decide, rfl, by decide⟩

theorem crcByte (b : Byte) : Statement (.crcByte b) := fun _ =>
  ⟨⟨"CRC.BYTE", 0x020000, 0xFFFF00⟩, by decide, rfl, by
    rw [OpcodeRow.selectedBy, opWord_and_opcHigh]; decide⟩

theorem crcRead : Statement .crcRead := fun _ => ⟨⟨"CRC.READ", 0x030000, 0xFFFFFF⟩, by decide, rfl, by decide⟩

theorem cnvCo2 (raw : Half) : Statement (.cnvCo2 raw) := fun _ =>
  ⟨⟨"CNV.CO2", 0x100000, 0xFF0000⟩, by decide, rfl, by rw [OpcodeRow.selectedBy, opWord_and_opc]; decide⟩

theorem cnvTemp (raw : Half) : Statement (.cnvTemp raw) := fun _ =>
  ⟨⟨"CNV.TEMP", 0x110000, 0xFF0000⟩, by decide, rfl, by rw [OpcodeRow.selectedBy, opWord_and_opc]; decide⟩

theorem cnvHumi (raw : Half) : Statement (.cnvHumi raw) := fun _ =>
  ⟨⟨"CNV.HUMI", 0x120000, 0xFF0000⟩, by decide, rfl, by rw [OpcodeRow.selectedBy, opWord_and_opc]; decide⟩

theorem sesStart : Statement .sesStart := fun _ => ⟨⟨"SES.START", 0x200000, 0xFFFFFF⟩, by decide, rfl, by decide⟩

theorem sesRead : Statement .sesRead := fun _ => ⟨⟨"SES.READ", 0x210000, 0xFFFFFF⟩, by decide, rfl, by decide⟩

theorem rd (r : Byte) : Statement (.rd r) := fun h => by
  have hr : ∀ n : Fin 4, (⟨"RD", 0x300000, 0xFFFFFC⟩ : OpcodeRow).selectedBy
      (opWord 0x30 ((BitVec.ofNat 8 n.val).zeroExtend 16)) = true := by decide
  have h3 : r.toNat ≤ 3 := by simpa [Instr.wellFormed] using h
  refine ⟨⟨"RD", 0x300000, 0xFFFFFC⟩, by decide, rfl, ?_⟩
  have := hr ⟨r.toNat, by omega⟩
  simpa using this

theorem busStartPeriodic : Statement .busStartPeriodic := fun _ => .inl ⟨rfl, rfl⟩

theorem busReadMeasurement : Statement .busReadMeasurement := fun _ => .inr ⟨rfl, rfl⟩

end Sys2Proof.Laws.EncodedRow
end

