-- ==== Sys2Proof/Laws/Step.lean ====
section
/-! SUPPORT. What a step comes to, by what the host does next (00_scope.md R7). -/

namespace Sys2Proof.Machine

theorem step_of_nil {s : State} (h : s.inputs = []) : step s = .next s := by
  simp [step, takeInput_of_nil h]

theorem step_of_reset {s : State} {rest : List HostInput} (h : s.inputs = .reset :: rest) :
    step s = .next s.applyReset := by simp [step, takeInput_of_reset h]

theorem step_of_early {s : State} {p : PortWord} {rest : List HostInput} {c : TransportCall}
    (h : s.inputs = .issue p :: rest) (hp : s.pending = some c) : step s = .fault .wordBeforeResponse := by
  simp [step, takeInput_of_early h hp]

theorem step_of_issue {s : State} {p : PortWord} {rest : List HostInput}
    (h : s.inputs = .issue p :: rest) (hp : s.pending = none) :
    step s = runWord p { s with inputs := rest } := by simp [step, takeInput_of_issue h hp]

theorem runWord_of_decode {p : PortWord} {i : Instr} (h : decode p = some i) (s : State) :
    runWord p s = exec i s := by simp [runWord, h]

theorem runWord_of_illegal {w : OpWord} (h : decode (.operation w) = none) (s : State) :
    runWord (.operation w) s = .next (s.refuse .illop) := by simp [runWord, h, rejectWord]

/-- The step after a table word is placed runs the instruction the decoder reads from it. -/
theorem step_withFetchWord {s : State} {nbits w : Nat} {i : Instr} (h : decodeTableWord nbits w = some i) :
    step (s.withFetchWord nbits w) = exec i { s with pending := none } := by
  have hd : decode (PortWord.ofTable nbits w) = some i := by
    simp only [decodeTableWord] at h
    split at h
    · exact h
    · simp at h
  rw [step_of_issue (p := PortWord.ofTable nbits w) (rest := s.inputs) rfl rfl]
  exact runWord_of_decode hd _

/-- Everything a step that answers a next state can do. -/
theorem step_cases {s t : State} (h : step s = .next t) :
    (s.inputs = [] ∧ t = s) ∨
    (∃ rest, s.inputs = .reset :: rest ∧ t = s.applyReset) ∨
    (∃ p rest i, s.inputs = .issue p :: rest ∧ s.pending = none ∧ decode p = some i ∧
      exec i { s with inputs := rest } = .next t) ∨
    (∃ w rest, s.inputs = .issue (.operation w) :: rest ∧ s.pending = none ∧ decode (.operation w) = none ∧
      t = State.refuse .illop { s with inputs := rest }) := by
  cases hi : s.inputs with
  | nil =>
    rw [step_of_nil hi] at h
    exact .inl ⟨rfl, (Host.Outcome.next.inj h).symm⟩
  | cons e rest =>
    cases e with
    | reset =>
      rw [step_of_reset hi] at h
      exact .inr (.inl ⟨rest, rfl, (Host.Outcome.next.inj h).symm⟩)
    | issue p =>
      obtain ⟨c, hp⟩ | hp : (∃ c, s.pending = some c) ∨ s.pending = none := by cases s.pending <;> simp
      · rw [step_of_early hi hp] at h; cases h
      · rw [step_of_issue hi hp] at h
        cases hd : decode p with
        | some i =>
          rw [runWord_of_decode hd] at h
          exact .inr (.inr (.inl ⟨p, rest, i, rfl, hp, hd, h⟩))
        | none =>
          cases p with
          | operation w =>
            rw [runWord_of_illegal hd] at h
            exact .inr (.inr (.inr ⟨w, rest, rfl, hp, hd, (Host.Outcome.next.inj h).symm⟩))
          | busCommand c => simp [runWord, hd, rejectWord] at h

end Sys2Proof.Machine
end

