-- ==== Sys2Proof/Laws/Run.lean ====
section
/-! SUPPORT. A run one step at a time, the host issuing one more instruction, and what a call of the
host comes to. -/

namespace Sys2Proof.Machine

theorem run_zero (s : State) : Sys2Proof.core.run 0 s = (.next s : Result) := rfl

/-- A step that answers a next state, and the run from there. -/
theorem run_of_next {M : Host.Core} {s t : M.State} (h : M.step s = .next t) (k : Nat) :
    M.run (k + 1) s = M.run k t := by simp [Host.Core.run, h]

/-- A run of a step and more that answers a next state took that step. -/
theorem next_of_run {M : Host.Core} {s u : M.State} {k : Nat} (h : M.run (k + 1) s = .next u) :
    ∃ t, M.step s = .next t ∧ M.run k t = .next u := by
  rw [Host.Core.run] at h
  split at h
  · exact ⟨_, by assumption, h⟩
  · cases h
  · cases h

/-- The same for this machine. Use it by transitivity. -/
theorem core_run_of_next {s t : State} (h : step s = .next t) (k : Nat) :
    (Sys2Proof.core.run (k + 1) s : Result) = Sys2Proof.core.run k t := run_of_next (M := Sys2Proof.core) h k

/-- The same for this machine. -/
theorem next_of_core_run {s u : State} {k : Nat} (h : Sys2Proof.core.run (k + 1) s = (.next u : Result)) :
    ∃ t : State, step s = .next t ∧ Sys2Proof.core.run k t = (.next u : Result) := next_of_run (M := Sys2Proof.core) h

@[simp] theorem issueAll_nil : issueAll [] = [] := rfl
@[simp] theorem issueAll_cons (i : Instr) (is : List Instr) :
    issueAll (i :: is) = .issue (encode i) :: issueAll is := rfl
@[simp] theorem issueAll_append (is js : List Instr) : issueAll (is ++ js) = issueAll is ++ issueAll js := by
  simp [issueAll]

/-! ### The host's calls -/

@[simp] theorem HostCall.andThen_answered {α β : Type} (a : α) (s : State) (f : α → State → HostCall β) :
    (HostCall.answered a s).andThen f = f a s := rfl
@[simp] theorem HostCall.andThen_unanswered {α β : Type} (o : Result) (f : α → State → HostCall β) :
    (HostCall.unanswered o : HostCall α).andThen f = .unanswered o := rfl

/-- The step after the host issued an instruction runs it. -/
theorem step_issueNext {i : Instr} {s : State} (hd : decode (encode i) = some i) (hp : s.pending = none) :
    step (s.issueNext i) = exec i s := by
  rw [step_of_issue (s := s.issueNext i) rfl hp, runWord_of_decode hd]; rfl

/-- A call whose instruction gave a response. -/
theorem hostCall_of_response {i : Instr} {s t : State} {r : Response} (hd : decode (encode i) = some i)
    (hp : s.pending = none) (h : exec i s = .next t) (hr : t.responses = s.responses ++ [r]) :
    hostCall i s = .answered r t := by
  simp [hostCall, step_issueNext hd hp, h, hr]

/-- A call whose instruction gave no response. -/
theorem hostCall_of_silence {i : Instr} {s t : State} (hd : decode (encode i) = some i)
    (hp : s.pending = none) (h : exec i s = .next t) (hr : t.responses = s.responses) :
    hostCall i s = .unanswered (.next t) := by
  simp [hostCall, step_issueNext hd hp, h, hr]

end Sys2Proof.Machine
end

