-- ==== Sys2Proof/Tests/Slice0.lean ====
section
/-! SUPPORT. The model's own tests. Expected values come from the spec: the section of 95_test_vectors.md or
the rule is named at each group. The witnesses at the end show, for each statement with hypotheses, a state
and operands that meet them. -/

namespace Sys2Proof.Tests

-- One theorem after another: a theorem that waits for the kernel holds a thread.
set_option Elab.async false

open Sys2Proof Sys2Proof.Machine

/-! ## Helpers -/

/-- A state in Measuring whose transport has these replies ready. -/
def ready (tx : List (Reply Bool)) (req : List (Reply Nat)) (rx : List Byte) : State :=
  { State.reset with
    meas := .measuring, txScript := tx, reqScript := req, rxScript := rx.map .returns }

/-- The first valid frame of section 2.5 and its reading. -/
def goodFrame : Frame := #v[0x01, 0xF4, 0x33, 0x66, 0x67, 0xA2, 0x5E, 0xB9, 0x3C]

/-- The reading of `goodFrame` (section 2.5). -/
def goodReading : Reading := ⟨0x01F4, 0x00190069, 0x00250044⟩

/-- `goodFrame` with bit 4 of its last checksum flipped (section 2.5). -/
def badFrame : Frame := #v[0x01, 0xF4, 0x33, 0x66, 0x67, 0xA2, 0x5E, 0xB9, 0x2C]

/-- What a result says of its next state. -/
def after {α : Type} (r : Result) (f : State → α) : Option α :=
  match r with
  | .next t => some (f t)
  | .fault _ => none
  | .refused _ => none

/-! ## Well-formedness -/

theorem test_wellFormed_refuses_rd4 : (Instr.rd 4).wellFormed = false := by decide
theorem test_wellFormed_accepts_rd3 : (Instr.rd 3).wellFormed = true := by decide

/-! ## Decoding: words written out from R81 and R82, verdicts of section 2.10 -/

theorem test_decode_crcInit : decode (.operation 0b00000001_00000000_00000000) = some .crcInit := by
  decide +kernel
theorem test_decode_crcByte : decode (.operation 0b00000010_00000000_10111110) = some (.crcByte 0xBE) := by
  decide +kernel
theorem test_decode_crcRead : decode (.operation 0b00000011_00000000_00000000) = some .crcRead := by
  decide +kernel
theorem test_decode_cnvCo2 : decode (.operation 0b00010000_10111110_11101111) = some (.cnvCo2 0xBEEF) := by
  decide +kernel
theorem test_decode_cnvTemp : decode (.operation 0b00010001_01000001_11010100) = some (.cnvTemp 0x41D4) := by
  decide +kernel
theorem test_decode_cnvHumi : decode (.operation 0b00010010_01011110_10111001) = some (.cnvHumi 0x5EB9) := by
  decide +kernel
theorem test_decode_sesStart : decode (.operation 0b00100000_00000000_00000000) = some .sesStart := by
  decide +kernel
theorem test_decode_sesRead : decode (.operation 0b00100001_00000000_00000000) = some .sesRead := by
  decide +kernel
theorem test_decode_rd : decode (.operation 0b00110000_00000000_00000010) = some (.rd 2) := by decide +kernel
theorem test_decode_busStartPeriodic : decode (.busCommand 0b00100001_10110001) = some .busStartPeriodic := by
  decide +kernel
theorem test_decode_busReadMeasurement : decode (.busCommand 0b11101100_00000101) = some .busReadMeasurement := by
  decide +kernel
theorem test_decode_refuses : ([0x010001, 0x0201FF, 0x130000, 0x200100, 0x220000, 0x300004, 0x300100, 0x000000,
    0xFFFFFF, 0x040000] : List OpWord).all (fun w => (decode (.operation w)).isNone) = true := by decide +kernel
theorem test_decodeTableWord : decodeTableWord 24 0x0200FF = some (.crcByte 0xFF) ∧
    decodeTableWord 16 0x21B1 = some .busStartPeriodic ∧ decodeTableWord 16 0x0121B1 = none ∧
    decodeTableWord 24 0x0021B1 = none := by decide +kernel

/-! ## The CRC unit (sections 1.2, 2.1, 2.2, 2.3, 2.4) -/

theorem test_crc8_vectors : crc8 [0xBE, 0xEF] = 0x92 ∧ crc8 [0x80, 0x00] = 0xA2 ∧ crc8 [0x5E, 0xB8] = 0x0D ∧
    crc8 [0xEC, 0x05] = 0xB6 := by decide +kernel
theorem test_crc8Update_vectors : crc8Update 0xFF 0x62 = 0x75 ∧ crc8Update 0x00 0x80 = 0x7A := by decide +kernel
theorem test_crcTable : crcTableEntry 0x41 = 0x0C ∧ crcTableEntry 0xE3 = 0x92 ∧ crcTable.length = 256 := by
  decide +kernel
theorem test_crcInit : after (exec .crcInit { State.reset with crc := 0x92 }) (·.crc) = some 0xFF := by
  decide +kernel
theorem test_crcByte : after (exec (.crcByte 0xEF) { State.reset with crc := 0x0C }) (·.crc) = some 0x92 := by
  decide +kernel
theorem test_crcRead : after (exec .crcRead { State.reset with crc := 0x92 }) (·.responses) =
    some [⟨true, 0, 0x00000092⟩] := by decide +kernel

/-! ## The converter (section 2.7) -/

theorem test_cnvCo2 : after (exec (.cnvCo2 0xFFFF) State.reset) (·.responses) = some [⟨true, 0, 0x0000FFFF⟩] := by
  decide +kernel
theorem test_cnvTemp_below_zero : after (exec (.cnvTemp 0x41D4) State.reset) (·.responses) =
    some [⟨true, 0, 0xFFFFFFEC⟩] := by decide +kernel
theorem test_cnvTemp_top : after (exec (.cnvTemp 0xFFFF) State.reset) (·.responses) =
    some [⟨true, 0, 0x0081FF51⟩] := by decide +kernel
theorem test_cnvHumi : after (exec (.cnvHumi 0x5EB9) State.reset) (·.responses) =
    some [⟨true, 0, 0x00250044⟩] := by decide +kernel

/-! ## The frame parser (section 2.5) -/

theorem test_parse_good : parseFrame goodFrame = .success goodReading := by decide +kernel
theorem test_parse_humidity_checksum : firstBad badFrame = some 2 := by decide +kernel
theorem test_parse_two_errors :
    firstBad #v[0x01, 0xF5, 0x33, 0x66, 0x67, 0xA2, 0x5E, 0xB8, 0x3C] = some 0 := by decide +kernel
theorem test_parse_zero_frame : firstBad #v[0, 0, 0, 0, 0, 0, 0, 0, 0] = some 0 := by decide +kernel
theorem test_parse_undetected : parseFrame #v[0x01, 0x90, 0x4C, 0x80, 0x00, 0xA2, 0x00, 0x00, 0x81] =
    .success ⟨0x0190, 0x002A8000, 0x00000000⟩ := by decide +kernel

/-! ## The session (sections 2.8, 1.6; R170) -/

theorem test_sesStart : after (exec .sesStart { State.reset with txScript := [.returns true] })
    (fun t => (t.meas, t.responses, t.trace)) =
    some (.measuring, [⟨true, 0, 0⟩], [.tx 0x62 [0x21, 0xB1] true]) := by decide +kernel
theorem test_sesStart_fails : after (exec .sesStart { State.reset with txScript := [.returns false] })
    (fun t => (t.meas, t.responses)) = some (.idle, [⟨true, 1, 0⟩]) := by decide +kernel
theorem test_sesRead : after (exec .sesRead (ready [.returns true] [.returns 9] goodFrame.toList))
    (fun t => (t.reading, t.responses, t.crc)) = some (some goodReading, [⟨true, 0, 0⟩], 0xFF) := by
  decide +kernel
theorem test_sesRead_ten_bytes : after (exec .sesRead (ready [.returns true] [.returns 10] goodFrame.toList))
    (fun t => (t.responses, t.trace, t.rxScript.length)) =
    some ([⟨true, 2, 0⟩], [.tx 0x62 [0xEC, 0x05] true, .req 0x62 9 10], 9) := by decide +kernel

/-! ## The register read (section 2.9) -/

theorem test_rd_status : after (exec (.rd 0)
    { State.reset with meas := .measuring, reading := some goodReading, illop := true, pviol := true, noval := true })
    (·.responses) = some [⟨true, 0, 0x00000073⟩] := by decide +kernel
theorem test_rd_refused : after (exec (.rd 1) State.reset)
    (fun t => (t.noval, t.illop, t.responses.map (·.acc))) = some (true, false, [false]) := by decide +kernel

/-! ## READDATA (R92; the example of R163, R167) -/

theorem test_readData : (match readData (ready [.returns true] [.returns 9] goodFrame.toList) with
    | .answered a t => some (a.response, a.reading, t.responses.length)
    | .unanswered _ => none) =
    some (⟨true, 0, 0⟩, some ⟨500, 1638505 / 65536, 2424900 / 65536⟩, 4) := by decide +kernel
theorem test_readData_in_idle : (match readData State.reset with
    | .answered a t => some (a.response.acc, a.reading, t.responses.length, t.pviol, t.noval)
    | .unanswered _ => none) = some (false, none, 1, true, false) := by decide +kernel

/-! ## The bus commands (R87) -/

theorem test_busStartPeriodic : after (exec .busStartPeriodic { State.reset with txScript := [.returns false] })
    (fun t => (t.trace, t.meas, t.responses)) = some ([.tx 0x62 [0x21, 0xB1] false], .idle, []) := by
  decide +kernel
theorem test_busReadMeasurement : after (exec .busReadMeasurement { State.reset with txScript := [.returns true] })
    (·.trace) = some [.tx 0x62 [0xEC, 0x05] true] := by decide +kernel

/-! ## The step -/

theorem test_step_illegal_word : after (step (State.reset.withFetchWord 24 0x020101))
    (fun t => (t.illop, t.crc, t.inputs)) = some (true, 0xFF, []) := by decide +kernel
theorem test_step_reset_while_waiting : after (step
    { ready [] [] [] with pending := some .rx, inputs := [.reset] }) (fun t => (t.pending, t.meas)) =
    some (none, .idle) := by decide +kernel
theorem test_step_runs_first_word : after (step (State.reset.withFetchWord 24 0x300000)) (·.responses) =
    some [⟨true, 0, 0⟩] := by decide +kernel

/-! ## Witnesses: a state and operands that meet a statement's hypotheses, clause by clause -/

theorem delivers_good (tx : List (Reply Bool)) (req : List (Reply Nat)) :
    (ready tx req goodFrame.toList).delivers goodFrame := by
  intro i; fin_cases i <;> rfl

theorem witness_DecodeOfEncodeIsTheInstruction : (Instr.rd 3).wellFormed = true := by decide
theorem witness_EncodeOfDecodeIsTheWord : decode (.operation 0x300003) = some (.rd 3) := by decide +kernel
theorem witness_DecoderFollowsTheOpcodeMap :
    (⟨"RD", 0x300000, 0xFFFFFC⟩ : OpcodeRow) ∈ opcodeMap ∧
    (⟨"RD", 0x300000, 0xFFFFFC⟩ : OpcodeRow).selectedBy 0x300003 = true := by decide
theorem witness_IllegalWordsAreRefused :
    let s := State.reset.withFetchWord 24 0x300004
    s.inputs = .issue (.operation 0x300004) :: [] ∧ s.pending = none ∧ decode (.operation 0x300004) = none := by
  decide +kernel
theorem witness_StepRunsTheDecodedInstruction :
    let s := State.reset.withFetchWord 24 0x0200FF
    s.inputs = .issue (.operation 0x0200FF) :: [] ∧ s.pending = none ∧
      decode (.operation 0x0200FF) = some (.crcByte 0xFF) := by decide +kernel
theorem witness_QuietBlockChangesNothing : State.reset.inputs = [] := rfl
theorem witness_OnlyAnEarlyWordFaults :
    (step { State.reset with pending := some .rx, inputs := [.issue (.operation 0x010000)] } matches .fault _) ∧
    (step { State.reset with inputs := [.issue (.busCommand 0x21B2)] } matches .refused _) := by decide +kernel
theorem witness_ResetEventGivesTheResetState :
    let s : State := { ready [] [] [] with
      pending := some .rx, inputs := [.reset], reading := some goodReading, illop := true, pviol := true, noval := true }
    s.inputs = .reset :: [] ∧ ∃ t, step s = .next t ∧ (s.meas = .measuring ∧ t.meas = .idle) ∧
      (s.valid = true ∧ t.valid = false) ∧ (s.illop = true ∧ t.illop = false) ∧
      (s.pviol = true ∧ t.pviol = false) ∧ (s.noval = true ∧ t.noval = false) :=
  ⟨rfl, _, rfl, ⟨rfl, rfl⟩, ⟨rfl, rfl⟩, ⟨rfl, rfl⟩, ⟨rfl, rfl⟩, rfl, rfl⟩
/-- Operands at the ends of their ranges, and either answer of the transport. -/
theorem witness_OperationsStraightAfterReset :
    (Instr.crcByte 0xFF) ∈ ([.crcInit, .crcByte 0xFF, .cnvCo2 0, .cnvTemp 0, .cnvHumi 0] : List Instr) ∧
    ({ State.reset with txScript := [.returns false] } : State).txReply = .returns false ∧
    ({ State.reset with txScript := [.returns true] } : State).txReply = .returns true := ⟨by decide, rfl, rfl⟩
theorem witness_CrcInitLoadsTheInitialValue : (0x0001 : Half) ≠ 0 := by decide
theorem witness_CrcByteFoldsTheByte : (0x01 : Byte) ≠ 0 := by decide
theorem witness_CrcComputeReturnsCrc8 :
    let s : State := { State.reset with inputs := issueAll (crcCompute []) ++ [.reset] }
    s.pending = none ∧ s.inputs = issueAll (crcCompute []) ++ [.reset] := ⟨rfl, rfl⟩
/-- A read refused between two bytes of a computation. -/
theorem witness_OtherOperationsLeaveTheCrcAlone :
    let is : List Instr := [.crcByte 0x01, .sesRead, .crcByte 0x90]
    let s : State := { State.reset with inputs := issueAll is }
    (∀ i ∈ is, i.wellFormed = true) ∧ s.inputs = issueAll is ++ [] ∧
      after (Sys2Proof.core.run is.length s : Result) (·.crc) = some 0x4C := by
  refine ⟨by decide, by simp, by decide +kernel⟩
theorem witness_ConverterRangeAndOrder :
    (0x41D4 : Half).toNat < (0x41D5 : Half).toNat ∧ (tempQ16 0x41D4).toInt < 0 ∧ 0 < (tempQ16 0x41D5).toInt := by
  decide +kernel
/-- Two frames that agree on sub-field 0 and differ after it. -/
theorem witness_FieldOkComparesTheChecksum :
    ∀ i : Fin 9, i.val / 3 = (0 : Fin 3).val → goodFrame[i] = badFrame[i] := by decide +kernel
theorem witness_CorruptionIsDetected :
    firstBad goodFrame = none ∧ firstBad (buildFrame 0 0 0) = none ∧ 1 ≤ ones (0x000001 : BitVec 24) ∧ ones (0xE00000 : BitVec 24) ≤ 3 ∧
    corrupt goodFrame 2 0x000010 = badFrame := by decide +kernel
theorem witness_FrameRoundTrip : parseFrame goodFrame = .success goodReading := test_parse_good
theorem witness_SesStartByAnswer :
    ({ State.reset with txScript := [.returns true] } : State).txReply = .returns true ∧
    (ready [.returns false] [] []).txReply = .returns false := ⟨rfl, rfl⟩
theorem witness_SesReadInIdleIsRefused : State.reset.meas = .idle := rfl
theorem witness_TransmitFailureEndsTheOperation :
    let s := ready [.returns false] [] []
    s.meas = .measuring ∧ s.txReply = .returns false ∧
      ∃ t, exec .sesRead s = .next t ∧ t.responses = s.responses ++ [⟨true, 1, 0⟩] :=
  ⟨rfl, rfl, _, rfl, rfl⟩
theorem witness_WrongLengthEndsTheRead : ∀ n ∈ [0, 8, 10],
    let s := ready [.returns true] [.returns n] []
    s.meas = .measuring ∧ s.txReply = .returns true ∧ s.spendTx.reqReply = .returns n ∧ n ≠ 9 ∧
      after (exec .sesRead s) (·.responses) = some (s.responses ++ [⟨true, 2, 0⟩]) := by decide +kernel
theorem witness_WrongChecksumEndsTheRead :
    let s := ready [.returns true] [.returns 9] badFrame.toList
    s.meas = .measuring ∧ s.txReply = .returns true ∧ s.spendTx.reqReply = .returns 9 ∧
      s.spendTx.spendReq.delivers badFrame ∧ firstBad badFrame ≠ none ∧
      after (exec .sesRead s) (·.responses) = some (s.responses ++ [⟨true, 3, 0⟩]) := by
  refine ⟨rfl, rfl, rfl, fun i => ?_, by decide +kernel, by decide +kernel⟩
  fin_cases i <;> rfl
theorem witness_GoodFrameIsDelivered :
    let s := ready [.returns true] [.returns 9] goodFrame.toList
    s.meas = .measuring ∧ s.txReply = .returns true ∧ s.spendTx.reqReply = .returns 9 ∧
      s.spendTx.spendReq.delivers goodFrame ∧ (crc8 [goodFrame[0], goodFrame[1]] = goodFrame[2] ∧
      crc8 [goodFrame[3], goodFrame[4]] = goodFrame[5] ∧ crc8 [goodFrame[6], goodFrame[7]] = goodFrame[8]) := by
  refine ⟨rfl, rfl, rfl, fun i => ?_, by decide +kernel⟩
  fin_cases i <;> rfl
/-- Two states that differ in every register a read does not depend on. -/
theorem witness_ReadDependsOnAnswersAlone :
    let s := ready [.returns true] [.returns 9] goodFrame.toList
    let u : State := { s with crc := 0x12, reading := some ⟨1, 2, 3⟩, noval := true, responses := [⟨true, 0, 0⟩] }
    s.meas = .measuring ∧ u.meas = .measuring ∧ s.txScript = u.txScript ∧ s.reqScript = u.reqScript ∧
      s.rxScript = u.rxScript ∧ s.draws = u.draws ∧ s.pending = none ∧ u.pending = none ∧
      (∃ t, exec .sesRead s = .next t) ∧ (∃ v, exec .sesRead u = .next v) :=
  ⟨rfl, rfl, rfl, rfl, rfl, rfl, rfl, rfl, ⟨_, rfl⟩, ⟨_, rfl⟩⟩
theorem witness_UnreturnedCallGivesNoResponse :
    (ready [.never] [] []).txReply = .never ∧ (ready [.never] [] []).meas = .measuring ∧
    (ready [.returns true] [.never] []).spendTx.reqReply = .never ∧
    (ready [.never] [] []).pending = none ∧
    after (exec .sesRead { ready [.returns true] [.returns 9] [] with
      rxScript := [.returns 1, .returns 2, .never] }) (fun t => (t.pending, t.trace.length)) =
      some (some .rx, 4) := by decide +kernel
/-- The clause on `RX`, at both ends of its range: no byte, and eight, before the call that never returns. -/
theorem witness_UnreturnedCallGivesNoResponse_rx : ∀ bytes ∈ ([[], [1, 2, 3, 4, 5, 6, 7, 8]] : List (List Byte)),
    let s := { ready [.returns true] [.returns 9] [] with rxScript := bytes.map Reply.returns ++ [Reply.never] }
    s.meas = .measuring ∧ s.txReply = .returns true ∧ s.spendTx.reqReply = .returns 9 ∧ bytes.length < 9 ∧
    (∀ i (h : i < bytes.length), (State.spendRxs i s.spendTx.spendReq).rxReply = .returns bytes[i]) ∧
    (State.spendRxs bytes.length s.spendTx.spendReq).rxReply = .never := by decide +kernel
theorem witness_TracesByOutcome :
    after (exec .sesRead (ready [.returns true] [.returns 9] badFrame.toList)) (fun t => (t.pending, t.responses)) =
      some (none, [⟨true, 3, 0⟩]) ∧
    after (exec .sesRead State.reset) (·.pending) = some none ∧
    after (exec .sesStart (ready [.returns false] [] [])) (·.pending) = some none ∧
    after (exec .crcRead State.reset) (·.pending) = some none := by decide +kernel
theorem witness_NoOperationRetries :
    (ready [.returns true] [.returns 9] goodFrame.toList).pending = none ∧
    ∃ t, exec .sesRead (ready [.returns true] [.returns 9] goodFrame.toList) = .next t := ⟨rfl, _, rfl⟩
theorem witness_ReadingRegistersAreReturned :
    (3 : Byte).toNat ≤ 3 ∧ ({ State.reset with reading := some goodReading } : State).reading = some goodReading := by
  decide
theorem witness_MissingReadingIsRefused :
    State.reset.valid = false ∧ ∀ n ∈ ([1, 2, 3] : List Byte), n ∈ ([1, 2, 3] : List Byte) := by decide
theorem witness_ReadDataReturnsTheReading :
    let s : State := { State.reset with reading := some goodReading, inputs := issueAll readDataReads ++ [] }
    s.pending = none ∧ s.reading = some goodReading ∧ s.inputs = issueAll readDataReads ++ [] := ⟨rfl, rfl, rfl⟩
theorem witness_BusCommandIsOneTransmit : (ready [.returns true] [] []).txReply = .returns true := rfl
theorem witness_SessionFollowsTheTransitionTable :
    (∃ t, step (({ State.reset with txScript := [.returns true] } : State).withFetchWord 24 0x200000) = .next t) ∧
    (∃ t, step { ready [] [] [] with inputs := [.reset] } = .next t) ∧
    (∃ t, step (State.reset.withFetchWord 24 0x300000) = .next t) := by
  refine ⟨?_, ?_, ?_⟩
  · exact ⟨_, step_withFetchWord (by decide +kernel : decodeTableWord 24 0x200000 = some .sesStart)⟩
  · exact ⟨_, rfl⟩
  · exact ⟨_, step_withFetchWord (by decide +kernel : decodeTableWord 24 0x300000 = some (.rd 0))⟩
theorem witness_OnlyTheCrcUnitWritesTheAccumulator :
    after (step (State.reset.withFetchWord 24 0x0200BE)) (·.crc) = some 0x0C ∧
    after (step (({ State.reset with crc := 0x92 } : State).withFetchWord 24 0x010000)) (·.crc) = some 0xFF ∧
    after (step { State.reset with crc := 0x92, inputs := [.reset] }) (·.crc) = some 0xFF := by decide +kernel
theorem witness_OnlyASuccessfulReadWritesTheReading :
    after (step ((ready [.returns true] [.returns 9] goodFrame.toList).withFetchWord 24 0x210000)) (·.reading) =
      some (some goodReading) ∧
    after (step { State.reset with reading := some goodReading, inputs := [.reset] }) (·.reading) = some none := by
  decide +kernel
theorem witness_FaultFlagsAreSticky :
    after (step (({ State.reset with illop := true } : State).withFetchWord 24 0x010000)) (·.illop) = some true ∧
    after (step { State.reset with illop := true, inputs := [.reset] }) (·.illop) = some false := by decide +kernel
theorem witness_FailuresAndRefusalsArePrecise :
    after (exec .sesRead (ready [.returns false] [] [])) (·.responses) = some ([] ++ [⟨true, 1, 0⟩]) ∧
    after (exec .sesRead State.reset) (fun t => t.responses.map (·.acc)) = some [false] := by decide +kernel
theorem witness_OneResponsePerOperation :
    after (step ((ready [.never] [] []).withFetchWord 24 0x210000)) (fun t => t.responses) = some [] ∧
    after (step ((ready [.returns false] [] []).withFetchWord 24 0x200000)) (·.responses) = some [⟨true, 1, 0⟩] ∧
    after (step (State.reset.withFetchWord 24 0x000000)) (fun t => t.responses.map (·.acc)) = some [false] := by
  decide +kernel
theorem witness_NoFailureStopsTheBlock :
    (State.reset.withFetchWord 24 0xFFFFFF).inputs = .issue (.operation 0xFFFFFF) :: [] ∧
    (State.reset.withFetchWord 24 0xFFFFFF).pending = none := by decide +kernel
theorem witness_TheBlockNeverReadsTheTrace : ∃ t, exec .sesStart (ready [.returns true] [] []) = .next t := ⟨_, rfl⟩
/-- A state in Measuring with a reading, and its next step. -/
theorem witness_StepKeepsTheSessionHistory :
    let s : State := { ready [] [] [] with
      trace := [startEvent true], reading := some goodReading, inputs := [.reset] }
    s.SessionHistory ∧ ∃ t, step s = .next t := by
  refine ⟨⟨fun _ => ?_, fun _ => rfl⟩, _, rfl⟩
  simp [startEvent]
theorem witness_StepKeepsTheReadingBacked :
    let s : State := { ready [] [] [] with
      trace := startEvent true :: frameEvents goodFrame, reading := some goodReading, inputs := [.reset] }
    s.ReadingBacked ∧ ∃ t, step s = .next t := by
  refine ⟨fun r hr => ⟨goodFrame, [startEvent true], [], by simp, by decide +kernel, ?_⟩, _, rfl⟩
  have hg : convertFrame goodFrame = goodReading := by decide +kernel
  have : some goodReading = some r := hr
  rw [hg]; exact (Option.some.inj this).symm
/-- One state for each clause: a good frame, and a failed transmit and a refusal. -/
theorem witness_ReadDataReadsThenFetches :
    let good := ready [.returns true] [.returns 9] goodFrame.toList
    let failed := ready [.returns false] [] []
    (good.pending = none ∧ after (exec .sesRead good) (·.responses) = some (good.responses ++ [⟨true, 0, 0⟩])) ∧
    (failed.pending = none ∧
      after (exec .sesRead failed) (·.responses) = some (failed.responses ++ [⟨true, 1, 0⟩])) ∧
    (State.reset.pending = none ∧
      after (exec .sesRead State.reset) (fun t => t.responses.map (·.acc)) = some [false]) := by decide +kernel

end Sys2Proof.Tests
end

section
/-! The scope's obligations (00_scope.md). -/

namespace Sys2Proof.Machine

/-- Settles O6: with no operation in progress the presented word is taken from the host's list and run
(`step_of_issue`), and running a word that decodes is executing its instruction (`runWord_of_decode`). -/
theorem stepRunsTheDecodedInstruction : Obligations.StepRunsTheDecodedInstruction := by
  intro s p rest i hinputs hpending hdecode
  calc step s = runWord p { s with inputs := rest } := step_of_issue hinputs hpending
    _ = exec i { s with inputs := rest } := runWord_of_decode hdecode _

end Sys2Proof.Machine
end

section
/-! SUPPORT. A word that decodes is the encoding of the instruction read from it (30_encoding.md R81, R82,
R87), format by format. -/

namespace Sys2Proof

/-- In format B the whole of `imm` is its low byte. -/
theorem immField_of_immHigh_eq_zero {w : OpWord} (h : immHigh w = 0) : immField w = (immLow w).zeroExtend 16 := by
  apply BitVec.eq_of_getLsbD_eq
  intro i hi
  by_cases hlow : i < 8
  · simp [immField, immLow, hlow, hi]
  · have hbit : (immHigh w).getLsbD (i - 8) = false := by simp [h]
    have hlt : i - 8 < 8 := by omega
    have hidx : 8 + (i - 8) = i := by omega
    simp only [immHigh, BitVec.getLsbD_extractLsb', hlt, decide_true, Bool.true_and, hidx] at hbit
    simp [immField, immLow, hlow, hbit]

theorem encode_of_formatN {c : Byte} {i j : Instr} {w : OpWord} (hopc : opcField w = c)
    (henc : encode i = .operation (opWord c 0)) (h : formatN i w = some j) : encode j = .operation w := by
  obtain ⟨himm, rfl⟩ : immField w = 0 ∧ i = j := by simpa [formatN] using h
  rw [henc, ← hopc, ← himm, opWord_fields]

theorem encode_of_formatB {c : Byte} {f : Byte → Instr} {j : Instr} {w : OpWord} (hopc : opcField w = c)
    (henc : ∀ b, encode (f b) = .operation (opWord c (b.zeroExtend 16))) (h : formatB f w = some j) :
    encode j = .operation w := by
  obtain ⟨hhigh, rfl⟩ : immHigh w = 0 ∧ f (immLow w) = j := by simpa [formatB] using h
  rw [henc, ← immField_of_immHigh_eq_zero hhigh, ← hopc, opWord_fields]

theorem encode_of_formatH {c : Byte} {f : Half → Instr} {j : Instr} {w : OpWord} (hopc : opcField w = c)
    (henc : ∀ raw, encode (f raw) = .operation (opWord c raw)) (h : formatH f w = some j) :
    encode j = .operation w := by
  obtain rfl : f (immField w) = j := by simpa [formatH] using h
  rw [henc, ← hopc, opWord_fields]

theorem encode_of_decodeOperation {w : OpWord} {i : Instr} (h : decodeOperation w = some i) :
    encode i = .operation w := by
  unfold decodeOperation at h
  split at h
  · next hopc => exact encode_of_formatN hopc rfl h
  split at h
  · next hopc => exact encode_of_formatB hopc (fun _ => rfl) h
  split at h
  · next hopc => exact encode_of_formatN hopc rfl h
  split at h
  · next hopc => exact encode_of_formatH hopc (fun _ => rfl) h
  split at h
  · next hopc => exact encode_of_formatH hopc (fun _ => rfl) h
  split at h
  · next hopc => exact encode_of_formatH hopc (fun _ => rfl) h
  split at h
  · next hopc => exact encode_of_formatN hopc rfl h
  split at h
  · next hopc => exact encode_of_formatN hopc rfl h
  split at h
  · next hopc =>
    obtain ⟨hformat, -⟩ := Option.filter_eq_some_iff.mp h
    exact encode_of_formatB hopc (fun _ => rfl) hformat
  · cases h

theorem encode_of_decodeBusCommand {c : Half} {i : Instr} (h : decodeBusCommand c = some i) :
    encode i = .busCommand c := by
  unfold decodeBusCommand at h
  split at h
  · next hc => cases h; rw [hc]; rfl
  split at h
  · next hc => cases h; rw [hc]; rfl
  · cases h

/-- The encoder inverts the decoder on every word that decodes, at either port. -/
theorem encode_of_decode {p : PortWord} {i : Instr} (h : decode p = some i) : encode i = p := by
  cases p with
  | operation w => exact encode_of_decodeOperation h
  | busCommand c => exact encode_of_decodeBusCommand h

end Sys2Proof
end

section
/-! SUPPORT. What an instruction does to one piece of state, read off `Effect`: who writes `CRC`, `MEAS`, the
reading registers, the flags and the trace (10_state.md R22, R23, R25, R27, R33). -/

namespace Sys2Proof.Machine

variable {i : Instr} {s t : State}

/-- The trace is only ever appended to (R33). -/
theorem Effect.trace_grows (h : Effect i s t) : s.trace <+: t.trace := by
  cases h <;> simp

/-- No instruction but `CRC.INIT` and `CRC.BYTE` writes the accumulator (R22). -/
theorem Effect.crc_eq (h : Effect i s t) (hinit : i ≠ .crcInit) (hbyte : ∀ b, i ≠ .crcByte b) : t.crc = s.crc := by
  cases h with
  | crcInit hi => exact absurd hi hinit
  | crcByte b hi => exact absurd hi (hbyte b)
  | _ => simp

/-- The session state changes only to Measuring, by a start command the transport took (R23, R161). -/
theorem Effect.meas_cases (h : Effect i s t) :
    t.meas = s.meas ∨ (i = .sesStart ∧ t.meas = .measuring ∧ t.trace = s.trace ++ [startEvent true]) := by
  cases h with
  | started hi => exact .inr ⟨hi, rfl, rfl⟩
  | _ => exact .inl (by simp)

/-- No instruction leaves Measuring (R161). -/
theorem Effect.measuring_stays (h : Effect i s t) (hm : s.meas = .measuring) : t.meas = .measuring := by
  obtain heq | ⟨-, ht, -⟩ := h.meas_cases
  · rw [heq, hm]
  · exact ht

/-- The reading registers change only by a `SES.READ` in Measuring that validated a whole frame (R25, R166). -/
theorem Effect.reading_cases (h : Effect i s t) :
    t.reading = s.reading ∨ (i = .sesRead ∧ s.meas = .measuring ∧ ∃ F, (∀ k, fieldOk F k = true) ∧
      t.reading = some (convertFrame F) ∧ t.trace = s.trace ++ frameEvents F ∧
      t.responses = s.responses ++ [⟨true, 0, 0⟩]) := by
  cases h with
  | goodFrame F hi hm _ hgood => exact .inr ⟨hi, hm, F, (firstBad_eq_none F).mp hgood, rfl, rfl, rfl⟩
  | _ => exact .inl (by simp)

/-- No instruction clears a fault flag (R27). -/
theorem Effect.flags_stay (h : Effect i s t) :
    (s.illop = true → t.illop = true) ∧ (s.pviol = true → t.pviol = true) ∧ (s.noval = true → t.noval = true) := by
  cases h <;> simp +contextual

end Sys2Proof.Machine
end

section
/-! The invariants of the session (10_state.md R23, R25, R26, R35; 42_session.md R161). -/

namespace Sys2Proof.Machine

/-- A step keeps a property that does not speak of the host's list if reset establishes it and every
instruction and every refusal keep it. -/
theorem step_keeps {P : State → Prop} (hinputs : ∀ s rest, P s → P { s with inputs := rest })
    (hreset : ∀ s : State, P s.applyReset) (hrefuse : ∀ (s : State) f, P s → P (s.refuse f))
    (heffect : ∀ i s t, Effect i s t → P s → P t) {s t : State} (hs : P s) (h : step s = .next t) : P t := by
  rcases step_cases h with ⟨-, rfl⟩ | ⟨rest, -, rfl⟩ | ⟨p, rest, i, -, -, -, hexec⟩ | ⟨w, rest, -, -, -, rfl⟩
  · exact hs
  · exact hreset s
  · exact heffect i _ t (exec_effect hexec) (hinputs s rest hs)
  · exact hrefuse _ _ (hinputs s rest hs)

/-- In Idle without a reading there is nothing to account for. -/
theorem State.SessionHistory.of_idle {s : State} (hm : s.meas = .idle) (hr : s.reading = none) :
    s.SessionHistory := by
  simp [State.SessionHistory, hm, hr]

/-- The session's history does not depend on what is neither session state, reading nor trace. -/
theorem State.SessionHistory.congr {s t : State} (hs : s.SessionHistory) (hm : t.meas = s.meas)
    (hr : t.reading = s.reading) (htr : t.trace = s.trace) : t.SessionHistory := by
  simpa [State.SessionHistory, hm, hr, htr] using hs

/-- Every instruction keeps the session's history: Measuring is entered together with its start event, which the
growing trace then keeps, and a reading is written in Measuring alone. -/
theorem Effect.keeps_sessionHistory {i : Instr} {s t : State} (h : Effect i s t) (hs : s.SessionHistory) :
    t.SessionHistory := by
  obtain ⟨hstarted, hmeasuring⟩ := hs
  constructor
  · intro hm
    obtain heq | ⟨-, -, htrace⟩ := h.meas_cases
    · exact h.trace_grows.subset (hstarted (heq ▸ hm))
    · simp [htrace]
  · intro hr
    obtain heq | ⟨-, hm, -⟩ := h.reading_cases
    · exact h.measuring_stays (hmeasuring (heq ▸ hr))
    · exact h.measuring_stays hm

/-- Settles O57: the invariant is kept by every instruction (`Effect.keeps_sessionHistory`) and by every refusal,
and reset establishes it. -/
theorem stepKeepsTheSessionHistory : Obligations.StepKeepsTheSessionHistory := by
  intro s t hs h
  exact step_keeps (P := State.SessionHistory) (fun _ _ hs => hs.congr rfl rfl rfl)
    (fun _ => .of_idle rfl rfl) (fun _ _ hs => hs.congr (by simp) (by simp) (by simp))
    (fun _ _ _ he hs => he.keeps_sessionHistory hs) hs h

/-- Without a reading there is nothing to back. -/
theorem State.ReadingBacked.of_none {s : State} (hr : s.reading = none) : s.ReadingBacked := by
  simp [State.ReadingBacked, hr]

/-- A reading that is backed stays backed while it stands and the trace only grows. -/
theorem State.ReadingBacked.of_trace_grows {s t : State} (hs : s.ReadingBacked) (hr : t.reading = s.reading)
    (htr : s.trace <+: t.trace) : t.ReadingBacked := by
  intro r ht
  obtain ⟨F, before, after, hsplit, hok, hconv⟩ := hs r (hr ▸ ht)
  obtain ⟨events, hgrown⟩ := htr
  exact ⟨F, before, after ++ events, by rw [← hgrown, hsplit, List.append_assoc], hok, hconv⟩

/-- Every instruction keeps the reading backed: a new reading is backed by the frame just received. -/
theorem Effect.keeps_readingBacked {i : Instr} {s t : State} (h : Effect i s t) (hs : s.ReadingBacked) :
    t.ReadingBacked := by
  obtain heq | ⟨-, -, F, hok, hreading, htrace, -⟩ := h.reading_cases
  · exact hs.of_trace_grows heq h.trace_grows
  · intro r hr
    exact ⟨F, s.trace, [], by simp [htrace], hok, Option.some.inj (hr.symm.trans hreading)⟩

/-- Settles O58: the invariant is kept by every instruction (`Effect.keeps_readingBacked`) and by every refusal,
and reset leaves no reading. -/
theorem stepKeepsTheReadingBacked : Obligations.StepKeepsTheReadingBacked := by
  intro s t hs h
  exact step_keeps (P := State.ReadingBacked) (fun _ _ hs => hs.of_trace_grows rfl (by simp))
    (fun _ => .of_none rfl) (fun _ _ hs => hs.of_trace_grows (by simp) (by simp))
    (fun _ _ _ he hs => he.keeps_readingBacked hs) hs h

/-- Settles O59: after reset the session is Idle without a reading, which is all that either invariant needs, and
no flag is set and no call pending. -/
theorem invariantsHoldAfterReset : Obligations.InvariantsHoldAfterReset :=
  ⟨.of_idle rfl rfl, .of_none rfl, rfl, rfl, rfl, rfl⟩

end Sys2Proof.Machine
end

section
/-! Who writes the registers and the flags (10_state.md R22, R25 to R27), and the values after reset (R35). -/

namespace Sys2Proof.Machine

/-- Settles O50: a step's instruction leaves `CRC` alone unless it is one of the two that `Effect.crc_eq` excepts,
and their words are the encodings of R82 (`encode_of_decode`). -/
theorem onlyTheCrcUnitWritesTheAccumulator : Obligations.OnlyTheCrcUnitWritesTheAccumulator := by
  intro s t h hcrc
  rcases step_cases h with ⟨-, rfl⟩ | ⟨rest, hi, -⟩ | ⟨p, rest, i, hi, -, hd, hexec⟩ | ⟨w, rest, -, -, -, rfl⟩
  · exact absurd rfl hcrc
  · exact .inl ⟨rest, hi⟩
  · obtain rfl := encode_of_decode hd
    by_cases hinit : i = .crcInit
    · subst hinit
      exact .inr (.inl ⟨rest, hi⟩)
    · by_cases hbyte : ∃ b, i = .crcByte b
      · obtain ⟨b, rfl⟩ := hbyte
        exact .inr (.inr ⟨b, rest, hi⟩)
      · exact absurd ((exec_effect hexec).crc_eq hinit fun b hb => hbyte ⟨b, hb⟩) hcrc
  · exact absurd (State.refuse_crc ..) hcrc

/-- Settles O51: among the instructions only a `SES.READ` that validated its frame writes the reading
(`Effect.reading_cases`), and its word is `0x210000` (`encode_of_decode`). -/
theorem onlyASuccessfulReadWritesTheReading : Obligations.OnlyASuccessfulReadWritesTheReading := by
  intro s t h hreading
  rcases step_cases h with ⟨-, rfl⟩ | ⟨rest, hi, rfl⟩ | ⟨p, rest, i, hi, -, hd, hexec⟩ | ⟨w, rest, -, -, -, rfl⟩
  · exact absurd rfl hreading
  · exact .inl ⟨rest, hi, rfl⟩
  · obtain heq | ⟨rfl, -, F, hok, hnew, htrace, hresponse⟩ := (exec_effect hexec).reading_cases
    · exact absurd heq hreading
    · obtain rfl := encode_of_decode hd
      exact .inr ⟨rest, F, hi, hok, hnew, by simp [State.valid, hnew], htrace, hresponse⟩
  · exact absurd (State.refuse_reading ..) hreading

/-- Settles O52: no instruction clears a flag (`Effect.flags_stay`), a refusal only sets one, and reset clears all
three. -/
theorem faultFlagsAreSticky : Obligations.FaultFlagsAreSticky := by
  intro s t h
  rcases step_cases h with ⟨hi, rfl⟩ | ⟨rest, hi, rfl⟩ | ⟨p, rest, i, hi, -, -, hexec⟩ | ⟨w, rest, hi, -, -, rfl⟩
  · exact ⟨fun _ => ⟨id, id, id⟩, by simp [hi]⟩
  · exact ⟨fun hne => absurd hi (hne rest), fun _ _ => ⟨rfl, rfl, rfl⟩⟩
  · exact ⟨fun _ => (exec_effect hexec).flags_stay, by simp [hi]⟩
  · exact ⟨fun _ => by simp +contextual, by simp [hi]⟩

/-- Settles O10: `State.reset` is R35's table. -/
theorem stateAfterReset : Obligations.StateAfterReset :=
  ⟨rfl, rfl, rfl, rfl, rfl, rfl, rfl, rfl⟩

end Sys2Proof.Machine
end

section
/-! The block never reads its trace (10_state.md R33): putting events before the trace commutes with every
operation of the block. -/

namespace Sys2Proof.Machine

/-- `s` with these events before its trace. -/
def State.prependTrace (before : List TransportEvent) (s : State) : State := { s with trace := before ++ s.trace }

/-- The same for what comes back from a transport call: the answer stays as it is. -/
def Call.prependTrace {α : Type} (before : List TransportEvent) : Call α → Call α
  | .returned a s => .returned a (s.prependTrace before)
  | .hung s => .hung (s.prependTrace before)

section
variable (before : List TransportEvent) (s : State)

/-! ### What the block reads of a state -/

@[simp] theorem State.prependTrace_meas : (s.prependTrace before).meas = s.meas := rfl
@[simp] theorem State.prependTrace_reading : (s.prependTrace before).reading = s.reading := rfl
@[simp] theorem State.prependTrace_status : (s.prependTrace before).status = s.status := rfl
@[simp] theorem State.prependTrace_txReply : (s.prependTrace before).txReply = s.txReply := rfl
@[simp] theorem State.prependTrace_reqReply : (s.prependTrace before).reqReply = s.reqReply := rfl
@[simp] theorem State.prependTrace_rxReply : (s.prependTrace before).rxReply = s.rxReply := rfl

/-! ### The updates of a state -/

@[simp] theorem State.respond_prependTrace (st : Status) (d : Data) :
    (s.prependTrace before).respond st d = (s.respond st d).prependTrace before := rfl
@[simp] theorem State.raise_prependTrace (f : Failure) :
    (s.prependTrace before).raise f = (s.raise f).prependTrace before := rfl
@[simp] theorem State.refuse_prependTrace (f : FaultFlag) :
    (s.prependTrace before).refuse f = (s.refuse f).prependTrace before := by cases f <;> rfl
@[simp] theorem State.record_prependTrace (e : TransportEvent) :
    (s.prependTrace before).record e = (s.record e).prependTrace before := by
  simp [State.record, State.prependTrace]

@[simp] theorem State.waitFor_prependTrace (c : TransportCall) :
    (s.prependTrace before).waitFor c = (s.waitFor c).prependTrace before := rfl
@[simp] theorem State.spendTx_prependTrace : (s.prependTrace before).spendTx = s.spendTx.prependTrace before := rfl
@[simp] theorem State.spendReq_prependTrace : (s.prependTrace before).spendReq = s.spendReq.prependTrace before := rfl
@[simp] theorem State.spendRx_prependTrace : (s.prependTrace before).spendRx = s.spendRx.prependTrace before := rfl

/-! ### The transport calls -/

@[simp] theorem Call.prependTrace_returned {α : Type} (a : α) :
    (Call.returned a s).prependTrace before = .returned a (s.prependTrace before) := rfl
@[simp] theorem Call.prependTrace_hung {α : Type} :
    (Call.hung s : Call α).prependTrace before = .hung (s.prependTrace before) := rfl

@[simp] theorem tx_prependTrace (addr : Addr7) (bytes : List Byte) :
    tx addr bytes (s.prependTrace before) = (tx addr bytes s).prependTrace before := by
  rw [tx, tx, State.prependTrace_txReply]
  cases s.txReply <;> simp

@[simp] theorem req_prependTrace (addr : Addr7) (count : Nat) :
    req addr count (s.prependTrace before) = (req addr count s).prependTrace before := by
  rw [req, req, State.prependTrace_reqReply]
  cases s.reqReply <;> simp

@[simp] theorem rx_prependTrace : rx (s.prependTrace before) = (rx s).prependTrace before := by
  rw [rx, rx, State.prependTrace_rxReply]
  cases s.rxReply <;> simp

@[simp] theorem sendCommand_prependTrace (c : Half) :
    sendCommand c (s.prependTrace before) = (sendCommand c s).prependTrace before := by
  simp [sendCommand]

@[simp] theorem drain_prependTrace (k : Nat) :
    drain k (s.prependTrace before) = (drain k s).prependTrace before := by
  induction k with
  | zero => rfl
  | succ k ih =>
    rw [drain, drain, ih]
    cases drain k s with
    | hung u => rfl
    | returned bytes u =>
      simp only [Call.prependTrace_returned, rx_prependTrace]
      cases rx u <;> rfl

/-! ### The operations -/

theorem readRegister_prependTrace (r : Byte) :
    readRegister r (s.prependTrace before) = (readRegister r s).prependTrace before := by
  unfold readRegister readReading
  cases regOfNumber r with
  | none => simp
  | some n => cases n <;> cases hr : s.reading <;> simp [hr]

theorem transmitAlone_prependTrace (c : Half) :
    transmitAlone c (s.prependTrace before) = (transmitAlone c s).prependTrace before := by
  rw [transmitAlone, transmitAlone, sendCommand_prependTrace]
  cases sendCommand c s <;> rfl

theorem sesStart_prependTrace : sesStart (s.prependTrace before) = (sesStart s).prependTrace before := by
  rw [sesStart, sesStart, sendCommand_prependTrace]
  cases sendCommand cmdStart s with
  | hung u => rfl
  | returned ok u => cases ok <;> rfl

theorem deliver_prependTrace (F : Frame) :
    deliver F (s.prependTrace before) = (deliver F s).prependTrace before := by
  rw [deliver, deliver]
  cases parseFrame F <;> rfl

theorem fetchFrame_prependTrace : fetchFrame (s.prependTrace before) = (fetchFrame s).prependTrace before := by
  rw [fetchFrame, fetchFrame, req_prependTrace]
  cases req periphAddr frameLen s with
  | hung u => rfl
  | returned n u =>
    simp only [Call.prependTrace_returned, drain_prependTrace]
    split
    · cases drain 9 u with
      | hung v => rfl
      | returned F v => exact deliver_prependTrace before v F
    · rfl

theorem sesRead_prependTrace : sesRead (s.prependTrace before) = (sesRead s).prependTrace before := by
  rw [sesRead, sesRead, State.prependTrace_meas, sendCommand_prependTrace]
  cases s.meas with
  | idle => exact State.refuse_prependTrace before s .pviol
  | measuring =>
    cases sendCommand cmdRead s with
    | hung u => rfl
    | returned ok u =>
      cases ok with
      | false => rfl
      | true => exact fetchFrame_prependTrace before u

end

/-- Settles O56: every instruction's operation commutes with putting events before the trace. -/
theorem theBlockNeverReadsTheTrace : Obligations.TheBlockNeverReadsTheTrace := by
  intro i s t before h
  change exec i (s.prependTrace before) = .next (t.prependTrace before)
  cases i <;> cases h
  case sesStart => exact congrArg _ (sesStart_prependTrace before s)
  case sesRead => exact congrArg _ (sesRead_prependTrace before s)
  case rd r => exact congrArg _ (readRegister_prependTrace before s r)
  case busStartPeriodic => exact congrArg _ (transmitAlone_prependTrace before s cmdStart)
  case busReadMeasurement => exact congrArg _ (transmitAlone_prependTrace before s cmdRead)
  -- `CRC.*` and `CNV.*` make no transport call and write no trace
  all_goals rfl

end Sys2Proof.Machine
end

section
/-! The STATUS view bit by bit (10_state.md R28). -/

namespace Sys2Proof.Machine

@[simp] theorem bit_getLsbD (b : Bool) (n : Nat) : (bit b).getLsbD n = (b && decide (n = 0)) := by
  cases b <;> simp [bit]

@[simp] theorem Session.bit_getLsbD (m : Session) (n : Nat) :
    m.bit.getLsbD n = (decide (m = .measuring) && decide (n = 0)) := by
  cases m <;> simp [Session.bit]

/-- A flag shifted to position `k` is bit `k` alone. -/
theorem bit_shiftLeft_getLsbD (b : Bool) {k : Nat} (hk : k < 32) (n : Nat) :
    (bit b <<< k).getLsbD n = (b && decide (n = k)) := by
  rw [BitVec.getLsbD_shiftLeft, bit_getLsbD]
  by_cases h : n = k
  · simp [h, hk]
  · have hout : n < 32 → k ≤ n → b = true → n - k ≠ 0 := by omega
    simpa [h] using hout

/-- Bit `n` of STATUS: the five state bits at positions 0, 1, 4, 5 and 6, and nothing elsewhere. -/
theorem State.status_getLsbD (s : State) (n : Nat) :
    s.status.getLsbD n = (s.noval && decide (n = 6) || s.pviol && decide (n = 5) || s.illop && decide (n = 4) ||
      s.valid && decide (n = 1) || decide (s.meas = .measuring) && decide (n = 0)) := by
  simp only [State.status, BitVec.getLsbD_or, Session.bit_getLsbD, bit_shiftLeft_getLsbD, Nat.reduceLT]

/-- Settles O44: `RD 0` responds with STATUS in every state, whose bits are `State.status_getLsbD`. -/
theorem statusReadShowsTheFlags : Obligations.StatusReadShowsTheFlags := by
  intro s
  refine ⟨s.status, rfl, ?_⟩
  simp only [State.status_getLsbD]
  refine ⟨by simp, by simp, by simp, by simp, by simp, by simp, by simp, fun n hn => ?_⟩
  obtain ⟨h6, h5, h4, h1, h0⟩ : n ≠ 6 ∧ n ≠ 5 ∧ n ≠ 4 ∧ n ≠ 1 ∧ n ≠ 0 := by omega
  simp [h6, h5, h4, h1, h0]

end Sys2Proof.Machine
end

section
/-! SUPPORT. The decoder on the two fields of an operation word, opcode by opcode, and that it inverts the encoder
(30_encoding.md R81 to R84, R87). -/

namespace Sys2Proof

/-! ### One equation an opcode (R82) -/

section
variable (imm : Half)

@[simp] theorem decode_opWord_crcInit :
    decode (.operation (opWord 0x01#8 imm)) = if imm = 0#16 then some .crcInit else none := by
  simp [decode, decodeOperation, formatN]

@[simp] theorem decode_opWord_crcByte : decode (.operation (opWord 0x02#8 imm)) =
    if imm.extractLsb' 8 8 = 0#8 then some (.crcByte (imm.extractLsb' 0 8)) else none := by
  simp [decode, decodeOperation, formatB]

@[simp] theorem decode_opWord_crcRead :
    decode (.operation (opWord 0x03#8 imm)) = if imm = 0#16 then some .crcRead else none := by
  simp [decode, decodeOperation, formatN]

@[simp] theorem decode_opWord_cnvCo2 : decode (.operation (opWord 0x10#8 imm)) = some (.cnvCo2 imm) := by
  simp [decode, decodeOperation, formatH]

@[simp] theorem decode_opWord_cnvTemp : decode (.operation (opWord 0x11#8 imm)) = some (.cnvTemp imm) := by
  simp [decode, decodeOperation, formatH]

@[simp] theorem decode_opWord_cnvHumi : decode (.operation (opWord 0x12#8 imm)) = some (.cnvHumi imm) := by
  simp [decode, decodeOperation, formatH]

@[simp] theorem decode_opWord_sesStart :
    decode (.operation (opWord 0x20#8 imm)) = if imm = 0#16 then some .sesStart else none := by
  simp [decode, decodeOperation, formatN]

@[simp] theorem decode_opWord_sesRead :
    decode (.operation (opWord 0x21#8 imm)) = if imm = 0#16 then some .sesRead else none := by
  simp [decode, decodeOperation, formatN]

@[simp] theorem decode_opWord_rd : decode (.operation (opWord 0x30#8 imm)) =
    if imm.extractLsb' 8 8 = 0#8 ∧ (imm.extractLsb' 0 8).toNat ≤ 3 then some (.rd (imm.extractLsb' 0 8))
    else none := by
  by_cases hhigh : imm.extractLsb' 8 8 = 0#8
  · simp [decode, decodeOperation, formatB, hhigh, Option.filter, Instr.wellFormed]
  · simp [decode, decodeOperation, formatB, hhigh]

end

/-- The opcodes R82 assigns. -/
def assignedOpcodes : List Byte := [0x01, 0x02, 0x03, 0x10, 0x11, 0x12, 0x20, 0x21, 0x30]

theorem decode_opWord_of_unassigned {opc : Byte} (h : opc ∉ assignedOpcodes) (imm : Half) :
    decode (.operation (opWord opc imm)) = none := by
  simp only [assignedOpcodes, BitVec.ofNat_eq_ofNat, List.mem_cons, List.not_mem_nil, or_false, not_or] at h
  simp [decode, decodeOperation, h]

/-! ### The decoder inverts the encoder -/

/-- The upper half of a byte's immediate is zero (format B, R81). -/
@[simp] theorem extractHigh_zeroExtend (b : Byte) : (b.setWidth 16).extractLsb' 8 8 = 0#8 := by
  apply BitVec.eq_of_getLsbD_eq; intro i hi
  simp

/-- The lower half of a byte's immediate is the byte (format B, R81). -/
@[simp] theorem extractLow_zeroExtend (b : Byte) : (b.setWidth 16).extractLsb' 0 8 = b := by
  apply BitVec.eq_of_getLsbD_eq; intro i hi
  simp [hi]; omega

/-- The decoder reads every well-formed instruction back from its own word, format by format. -/
theorem decode_encode {i : Instr} (h : i.wellFormed = true) : decode (encode i) = some i := by
  cases i with
  | crcInit | crcRead | sesStart | sesRead => simp [encode]
  | crcByte b => simp [encode]
  | cnvCo2 raw | cnvTemp raw | cnvHumi raw => simp [encode]
  | rd r =>
    have hr : r.toNat ≤ 3 := by simpa [Instr.wellFormed] using h
    simp [encode, hr]
  | busStartPeriodic | busReadMeasurement => rfl

/-- The decoder reads well-formed instructions only: the one operand that can be out of range is the register
number, and the decoder checks it. -/
theorem wellFormed_of_decode {p : PortWord} {i : Instr} (h : decode p = some i) : i.wellFormed = true := by
  obtain rfl := encode_of_decode h
  cases i with
  | rd r => simpa [encode, Instr.wellFormed] using h
  | _ => rfl

theorem decode_eq_some_iff {p : PortWord} {i : Instr} :
    decode p = some i ↔ i.wellFormed = true ∧ encode i = p :=
  ⟨fun h => ⟨wellFormed_of_decode h, encode_of_decode h⟩, fun ⟨hwf, henc⟩ => henc ▸ decode_encode hwf⟩

/-- No two well-formed instructions share a word. -/
theorem encode_inj {i j : Instr} (hi : i.wellFormed = true) (hj : j.wellFormed = true) :
    encode i = encode j ↔ i = j :=
  ⟨fun h => Option.some.inj (by rw [← decode_encode hi, h, decode_encode hj]), congrArg encode⟩

theorem operationWord_eq_iff {i j : Instr} {v w : OpWord} (hi : i.wellFormed = true) (hj : j.wellFormed = true)
    (hv : encode i = .operation v) (hw : encode j = .operation w) : v = w ↔ i = j := by
  rw [← encode_inj hi hj, hv, hw, PortWord.operation.injEq]

/-- Settles O1: the decoder inverts the encoder on every well-formed instruction (`decode_encode`). -/
theorem decodeOfEncodeIsTheInstruction : Obligations.DecodeOfEncodeIsTheInstruction :=
  fun _ => decode_encode

/-- Settles O2: the encoder inverts the decoder (`encode_of_decode`), which accepts well-formed instructions only
(`wellFormed_of_decode`). -/
theorem encodeOfDecodeIsTheWord : Obligations.EncodeOfDecodeIsTheWord :=
  fun _ _ => decode_eq_some_iff.mp

end Sys2Proof
end

section
/-! SUPPORT. The rows of the match-and-mask table as sets of words: each row selects an interval of words, no two
rows share one, and together they are the words that decode (30_encoding.md R82). -/

namespace Sys2Proof

theorem OpcodeRow.selectedBy_iff {row : OpcodeRow} {w : OpWord} :
    row.selectedBy w = true ↔ w &&& row.mask = row.pattern := by simp [selectedBy]

/-- A word that two rows select has the bits of each pattern that the other mask keeps; no two patterns of the
table agree on those. -/
theorem opcodeMap_disjoint {w : OpWord} {r₁ r₂ : OpcodeRow} (h₁ : r₁ ∈ opcodeMap) (h₂ : r₂ ∈ opcodeMap)
    (hs₁ : r₁.selectedBy w = true) (hs₂ : r₂.selectedBy w = true) : r₁ = r₂ := by
  have hpatterns : ∀ a ∈ opcodeMap, ∀ b ∈ opcodeMap, a.pattern &&& b.mask = b.pattern &&& a.mask → a = b := by
    decide
  refine hpatterns r₁ h₁ r₂ h₂ ?_
  rw [← OpcodeRow.selectedBy_iff.mp hs₁, ← OpcodeRow.selectedBy_iff.mp hs₂]
  ac_rfl

/-- The words, as numbers, that agree with the pattern down to the operand bits. -/
def OpcodeRow.words (row : OpcodeRow) : Finset Nat :=
  Finset.Ico row.pattern.toNat (row.pattern.toNat + (2 ^ 24 - row.mask.toNat))

/-- A mask of leading ones clears the low bits: it rounds down to a multiple. -/
theorem toNat_and_leadingOnes (w : OpWord) (k : Nat) :
    (w &&& BitVec.allOnes 24 <<< k).toNat = w.toNat / 2 ^ k * 2 ^ k := by
  rw [← BitVec.shiftLeft_ushiftRight, BitVec.toNat_shiftLeft, BitVec.toNat_ushiftRight, Nat.shiftLeft_eq,
    Nat.shiftRight_eq_div_pow]
  exact Nat.mod_eq_of_lt (lt_of_le_of_lt (Nat.div_mul_le_self ..) w.isLt)

/-- Every mask of the table is leading ones, and its pattern has zeros below them. -/
theorem opcodeMap_masks : ∀ row ∈ opcodeMap, ∃ k : Fin 17, row.mask = BitVec.allOnes 24 <<< k.val ∧
    2 ^ 24 - row.mask.toNat = 2 ^ k.val ∧ row.pattern.toNat % 2 ^ k.val = 0 := by decide

/-- A row selects an interval of words. -/
theorem OpcodeRow.selectedBy_iff_mem_words {row : OpcodeRow} (hrow : row ∈ opcodeMap) (w : OpWord) :
    row.selectedBy w = true ↔ w.toNat ∈ row.words := by
  obtain ⟨k, hmask, hsize, haligned⟩ := opcodeMap_masks row hrow
  rw [selectedBy_iff, words, hsize, hmask, ← BitVec.toNat_inj, toNat_and_leadingOnes, Finset.mem_Ico]
  obtain ⟨q, hq⟩ := Nat.dvd_of_mod_eq_zero haligned
  have hpos : 0 < 2 ^ k.val := by positivity
  rw [hq, Nat.mul_comm, Nat.mul_right_inj hpos.ne', Nat.div_eq_iff hpos]
  rw [Nat.mul_comm q]
  omega

/-- The masks of the table keep `opc`. -/
theorem opcField_of_selectedBy {row : OpcodeRow} (hrow : row ∈ opcodeMap) {w : OpWord} (h : row.selectedBy w = true) :
    opcField w = opcField row.pattern := by
  have hmask : ∀ r ∈ opcodeMap, opcField r.mask = BitVec.allOnes 8 := by decide
  rw [← OpcodeRow.selectedBy_iff.mp h, opcField, opcField, BitVec.extractLsb'_and, ← opcField, ← opcField,
    hmask row hrow, BitVec.and_allOnes]

theorem immField_eq_zero_iff {w : OpWord} : immField w = 0#16 ↔ w.toNat % 65536 = 0 := by
  simp [immField, ← BitVec.toNat_inj]

theorem immField_high_eq_zero_iff {w : OpWord} :
    (immField w).extractLsb' 8 8 = 0#8 ↔ w.toNat % 65536 < 256 := by
  simp [immField, ← BitVec.toNat_inj, Nat.shiftRight_eq_div_pow]; omega

@[simp] theorem immField_toNat (w : OpWord) : (immField w).toNat = w.toNat % 65536 := by simp [immField]

/-- The words of each row decode: what the formats ask of `imm` (R81, R83) are the bounds of the row's interval. -/
theorem isSome_decode_of_selectedBy {row : OpcodeRow} (hrow : row ∈ opcodeMap) {w : OpWord}
    (h : row.selectedBy w = true) :
    (decode (.operation w)).isSome = true := by
  have hw := (OpcodeRow.selectedBy_iff_mem_words hrow w).mp h
  rw [← opWord_fields w, opcField_of_selectedBy hrow h]
  simp only [opcodeMap, List.mem_cons, List.not_mem_nil, or_false] at hrow
  rcases hrow with rfl | rfl | rfl | rfl | rfl | rfl | rfl | rfl | rfl <;>
    simp [OpcodeRow.words] at hw
  · simp [opcField, immField_eq_zero_iff, hw]
  · simp [opcField, immField_high_eq_zero_iff]; omega
  · simp [opcField, immField_eq_zero_iff, hw]
  · simp [opcField]
  · simp [opcField]
  · simp [opcField]
  · simp [opcField, immField_eq_zero_iff, hw]
  · simp [opcField, immField_eq_zero_iff, hw]
  · simp [opcField, immField_high_eq_zero_iff]; omega

/-- The family EncodedRow, over all instructions. -/
theorem encodedRow (i : Instr) : Laws.EncodedRow.Statement i := by
  cases i with
  | crcInit => exact Laws.EncodedRow.crcInit
  | crcByte b => exact Laws.EncodedRow.crcByte b
  | crcRead => exact Laws.EncodedRow.crcRead
  | cnvCo2 raw => exact Laws.EncodedRow.cnvCo2 raw
  | cnvTemp raw => exact Laws.EncodedRow.cnvTemp raw
  | cnvHumi raw => exact Laws.EncodedRow.cnvHumi raw
  | sesStart => exact Laws.EncodedRow.sesStart
  | sesRead => exact Laws.EncodedRow.sesRead
  | rd r => exact Laws.EncodedRow.rd r
  | busStartPeriodic => exact Laws.EncodedRow.busStartPeriodic
  | busReadMeasurement => exact Laws.EncodedRow.busReadMeasurement

/-- A word that decodes selects the row of its instruction. -/
theorem selectedBy_of_decode {w : OpWord} {i : Instr} (h : decode (.operation w) = some i) :
    ∃ row ∈ opcodeMap, row.mnemonic = i.mnemonic ∧ row.selectedBy w = true := by
  simpa only [encode_of_decode h] using encodedRow i (wellFormed_of_decode h)

/-- The legal words are those of the table's rows. -/
theorem decode_isSome_iff {w : OpWord} :
    (decode (.operation w)).isSome = true ↔ ∃ row ∈ opcodeMap, row.selectedBy w = true := by
  constructor
  · intro h
    obtain ⟨i, hi⟩ := Option.isSome_iff_exists.mp h
    obtain ⟨row, hrow, -, hsel⟩ := selectedBy_of_decode hi
    exact ⟨row, hrow, hsel⟩
  · rintro ⟨row, hrow, hsel⟩
    exact isSome_decode_of_selectedBy hrow hsel

/-- The one row a word selects is the one a search finds. -/
theorem find?_selectedBy {w : OpWord} {row : OpcodeRow} (hrow : row ∈ opcodeMap) (hsel : row.selectedBy w = true) :
    (opcodeMap.find? fun r => r.selectedBy w) = some row := by
  cases hfind : opcodeMap.find? fun r => r.selectedBy w with
  | none => exact absurd hsel (List.find?_eq_none.mp hfind row hrow)
  | some found =>
    have hfound : found.selectedBy w = true := List.find?_some (p := fun r : OpcodeRow => r.selectedBy w) hfind
    rw [opcodeMap_disjoint (List.mem_of_find?_eq_some hfind) hrow hfound hsel]

/-- The decoder reads the mnemonic of the row the word selects. -/
theorem decode_mnemonic (w : OpWord) : (decode (.operation w)).map Instr.mnemonic =
    (opcodeMap.find? fun row => row.selectedBy w).map OpcodeRow.mnemonic := by
  cases hd : decode (.operation w) with
  | some i =>
    obtain ⟨row, hrow, hname, hsel⟩ := selectedBy_of_decode hd
    simp [find?_selectedBy hrow hsel, hname]
  | none =>
    have hnone : ∀ row ∈ opcodeMap, ¬ row.selectedBy w = true := fun row hrow hsel => by
      simpa [hd] using isSome_decode_of_selectedBy hrow hsel
    rw [List.find?_eq_none.mpr hnone]; rfl

theorem lt_of_mem_words {row : OpcodeRow} (hrow : row ∈ opcodeMap) {n : Nat} (h : n ∈ row.words) : n < 2 ^ 24 := by
  have hbound : ∀ r ∈ opcodeMap, r.pattern.toNat + (2 ^ 24 - r.mask.toNat) ≤ 2 ^ 24 := by decide
  exact lt_of_lt_of_le (Finset.mem_Ico.mp h).2 (hbound row hrow)

theorem selectedBy_ofNat_iff {row : OpcodeRow} (hrow : row ∈ opcodeMap) {n : Nat} (hn : n < 2 ^ 24) :
    row.selectedBy (BitVec.ofNat 24 n) = true ↔ n ∈ row.words := by
  rw [OpcodeRow.selectedBy_iff_mem_words hrow, BitVec.toNat_ofNat, Nat.mod_eq_of_lt hn]

/-- The legal words, as numbers, are the union of the rows' intervals. -/
theorem legalWords_eq_biUnion :
    ((Finset.range (2 ^ 24)).filter fun n => (decode (.operation (BitVec.ofNat 24 n))).isSome) =
      opcodeMap.toFinset.biUnion OpcodeRow.words := by
  ext n
  simp only [Finset.mem_filter, Finset.mem_range, decode_isSome_iff, Finset.mem_biUnion, List.mem_toFinset]
  constructor
  · rintro ⟨hn, row, hrow, hsel⟩
    exact ⟨row, hrow, (selectedBy_ofNat_iff hrow hn).mp hsel⟩
  · rintro ⟨row, hrow, hmem⟩
    have hn := lt_of_mem_words hrow hmem
    exact ⟨hn, row, hrow, (selectedBy_ofNat_iff hrow hn).mpr hmem⟩

/-- The rows' intervals do not meet: a number in two of them would be a word that selects two rows. -/
theorem opcodeMap_words_pairwiseDisjoint :
    (opcodeMap.toFinset : Set OpcodeRow).PairwiseDisjoint OpcodeRow.words := by
  intro r₁ h₁ r₂ h₂ hne
  rw [Finset.mem_coe, List.mem_toFinset] at h₁ h₂
  refine Finset.disjoint_left.mpr fun n hn₁ hn₂ => hne ?_
  have hn := lt_of_mem_words h₁ hn₁
  exact opcodeMap_disjoint h₁ h₂ ((selectedBy_ofNat_iff h₁ hn).mpr hn₁) ((selectedBy_ofNat_iff h₂ hn).mpr hn₂)

/-- Settles O3: a word decodes exactly when a row selects it, to that row's mnemonic (`decode_mnemonic`); the rows
are disjoint (`opcodeMap_disjoint`); so the legal words are counted row by row. -/
theorem decoderFollowsTheOpcodeMap : Obligations.DecoderFollowsTheOpcodeMap := by
  refine ⟨decode_mnemonic, fun w r₁ h₁ r₂ h₂ => opcodeMap_disjoint h₁ h₂, ?_⟩
  rw [legalWords_eq_biUnion, Finset.card_biUnion opcodeMap_words_pairwiseDisjoint]
  simp only [OpcodeRow.words, Nat.card_Ico, Nat.add_sub_cancel_left]
  decide

end Sys2Proof
end
section
/-! Sample words, illegal words and what the block does with one (30_encoding.md R84; 60_exceptions.md R204). -/

namespace Sys2Proof

/-- Settles O5: the words' fields decide. -/
theorem sampleWordsDecode : Obligations.SampleWordsDecode := by
  unfold Obligations.SampleWordsDecode
  decide

/-- R84's four ways to be illegal, opcode by opcode. -/
theorem decode_opWord_eq_none_iff (opc : Byte) (imm : Half) :
    decode (.operation (opWord opc imm)) = none ↔
    opc ∉ assignedOpcodes ∨
    (opc ∈ ([0x01, 0x03, 0x20, 0x21] : List Byte) ∧ imm ≠ 0) ∨
    (opc ∈ ([0x02, 0x30] : List Byte) ∧ imm.extractLsb' 8 8 ≠ 0) ∨
    (opc = 0x30 ∧ 3 < (imm.extractLsb' 0 8).toNat) := by
  by_cases h : opc ∈ assignedOpcodes
  · simp only [assignedOpcodes, List.mem_cons, List.not_mem_nil, or_false] at h
    rcases h with rfl | rfl | rfl | rfl | rfl | rfl | rfl | rfl | rfl <;>
      simp [assignedOpcodes, imp_iff_not_or]
  · simp [decode_opWord_of_unassigned h, h]

end Sys2Proof

namespace Sys2Proof.Machine

/-- Settles O4: `decode_opWord_eq_none_iff`, and the step of an illegal word is the refusal with `ILLOP`
(`runWord_of_illegal`), whose response has free `st` and `data`. -/
theorem illegalWordsAreRefused : Obligations.IllegalWordsAreRefused := by
  refine ⟨decode_opWord_eq_none_iff, fun s w rest hinputs hpending hillegal => ?_⟩
  refine ⟨⟨false, Config.refusedSt s.draws, Config.refusedData s.draws⟩, s.draws + 1, rfl, ?_⟩
  calc step s = runWord (.operation w) { s with inputs := rest } := step_of_issue hinputs hpending
    _ = .next (State.refuse .illop { s with inputs := rest }) := runWord_of_illegal hillegal _

end Sys2Proof.Machine
end

section
/-! The pseudo-operations as the words they expand to (30_encoding.md R91, R92; 40_crc.md R117). -/

namespace Sys2Proof.Machine

/-- The host's next word is that of a well-formed instruction: the step runs the instruction. -/
theorem step_of_encoded {i : Instr} {s : State} {rest : List HostInput} (hwf : i.wellFormed = true)
    (hinputs : s.inputs = .issue (encode i) :: rest) (hpending : s.pending = none) :
    step s = exec i { s with inputs := rest } :=
  (step_of_issue hinputs hpending).trans (runWord_of_decode (decode_encode hwf) _)

/-- A run whose first instruction answers `t` goes on from there. -/
theorem run_of_encoded {i : Instr} {s t : State} {rest : List HostInput} (hwf : i.wellFormed = true)
    (hinputs : s.inputs = .issue (encode i) :: rest) (hpending : s.pending = none)
    (hexec : exec i { s with inputs := rest } = .next t) {k : Nat} {o : Result} (hrun : Sys2Proof.core.run k t = o) :
    Sys2Proof.core.run (k + 1) s = o :=
  (core_run_of_next ((step_of_encoded hwf hinputs hpending).trans hexec) k).trans hrun

/-- A run of no steps answers its state. -/
theorem core_run_zero_of_eq {s t : State} (h : s = t) : Sys2Proof.core.run 0 s = (.next t : Result) :=
  h ▸ run_zero s

/-- `s` after the host's words up to `rest` folded these bytes into `CRC`, each with the response `(1, 0, 0)`. -/
def State.afterBytes (bytes : List Byte) (rest : List HostInput) (s : State) : State :=
  { s with
    inputs := rest
    crc := bytes.foldl crc8Update s.crc
    responses := s.responses ++ List.replicate bytes.length ⟨true, 0, 0⟩ }

/-- The words of `CRC.BYTE` for a list of bytes, and the run from there. -/
theorem run_crcBytes (bytes : List Byte) (k : Nat) (rest : List HostInput) {s : State} (hpending : s.pending = none)
    (hinputs : s.inputs = issueAll (bytes.map .crcByte) ++ rest) :
    (Sys2Proof.core.run (bytes.length + k) s : Result) = Sys2Proof.core.run k (s.afterBytes bytes rest) := by
  induction bytes generalizing s with
  | nil =>
    obtain rfl : s.inputs = rest := by simpa using hinputs
    simp [State.afterBytes]
  | cons b bs ih =>
    have hlength : (b :: bs).length + k = bs.length + k + 1 := by simp; omega
    have hbytes : (s.afterBytes [b] (issueAll (bs.map .crcByte) ++ rest)).afterBytes bs rest =
        s.afterBytes (b :: bs) rest := by simp [State.afterBytes, List.replicate_succ]
    rw [hlength, ← hbytes]
    exact run_of_encoded (i := .crcByte b) rfl hinputs hpending rfl (ih hpending rfl)

/-- Settles O22: `CRC.INIT` loads the initial value, the bytes are folded in (`run_crcBytes`), and `CRC.READ`
responds with the result. -/
theorem crcComputeReturnsCrc8 : Obligations.CrcComputeReturnsCrc8 := by
  intro s bytes rest hpending hinputs
  have hsplit : s.inputs = .issue (encode .crcInit) ::
      (issueAll (bytes.map .crcByte) ++ .issue (encode .crcRead) :: rest) := by simp [hinputs, crcCompute]
  refine run_of_encoded rfl hsplit hpending rfl ?_
  refine (run_crcBytes bytes 1 (.issue (encode .crcRead) :: rest) (by exact hpending) rfl).trans ?_
  refine run_of_encoded (i := .crcRead) rfl rfl (by exact hpending) rfl ?_
  refine core_run_zero_of_eq ?_
  simp [State.afterBytes, State.respond, crc8, Status.code, List.replicate_succ]

/-! ### The three reading registers, when there is a reading (R190) -/

theorem exec_rd_co2Ppm {s : State} {x : Reading} (h : s.reading = some x) :
    exec (.rd 1) s = .next (s.respond .success (x.co2Ppm.zeroExtend 32)) := by
  simp [exec, execRd, readRegister, readReading, h]

theorem exec_rd_tempQ16 {s : State} {x : Reading} (h : s.reading = some x) :
    exec (.rd 2) s = .next (s.respond .success x.tempQ16) := by
  simp [exec, execRd, readRegister, readReading, h]

theorem exec_rd_humiQ16 {s : State} {x : Reading} (h : s.reading = some x) :
    exec (.rd 3) s = .next (s.respond .success x.humiQ16) := by
  simp [exec, execRd, readRegister, readReading, h]

/-- Settles O47: each of the three words is decoded and read in turn (`exec_rd_co2Ppm` and the two after it). -/
theorem readDataReturnsTheReading : Obligations.ReadDataReturnsTheReading := by
  intro s x rest hpending hreading hinputs
  refine run_of_encoded rfl hinputs hpending (exec_rd_co2Ppm hreading) ?_
  refine run_of_encoded (i := .rd 2) rfl rfl (by exact hpending) (exec_rd_tempQ16 (by exact hreading)) ?_
  refine run_of_encoded (i := .rd 3) rfl rfl (by exact hpending) (exec_rd_humiQ16 (by exact hreading)) ?_
  refine core_run_zero_of_eq ?_
  simp [State.respond, Status.code]

/-- A bus command alone whose transmit returned: one event and one spent reply (R87). -/
theorem transmitAlone_of_returns {s : State} {ok : Bool} (h : s.txReply = .returns ok) (c : Half) :
    transmitAlone c s = s.spendTx.record (.tx periphAddr (commandBytes c) ok) := by
  simp [transmitAlone, sendCommand, tx_of_returns h]

/-- Settles O48: the transmit carries the command's two bytes, high byte first. -/
theorem busCommandIsOneTransmit : Obligations.BusCommandIsOneTransmit := by
  intro s ok h
  constructor
  · change Host.Outcome.next (transmitAlone cmdStart s) = _
    rw [transmitAlone_of_returns h, commandBytes_cmdStart]; rfl
  · change Host.Outcome.next (transmitAlone cmdRead s) = _
    rw [transmitAlone_of_returns h, commandBytes_cmdRead]; rfl

end Sys2Proof.Machine
end

section
/-! What an operation that ended responds, and the host's procedure `READDATA` (30_encoding.md R85, R86, R92). -/

namespace Sys2Proof.Machine

/-- What R85 and R86 ask of the response to `i`, if it was accepted: a reported failure carries no data, `SES.START`
reports at most a transmit failure, and only the two session operations report a failure at all. -/
def Response.Admissible (i : Instr) (r : Response) : Prop :=
  r.acc = true → (r.st ≠ 0 → r.data = 0) ∧ (i = .sesStart → r.st = 0 ∨ r.st = 1) ∧
    (i ≠ .sesStart → i ≠ .sesRead → r.st = 0)

theorem Response.Admissible.of_refused {i : Instr} {r : Response} (h : r.acc = false) : r.Admissible i := by
  simp [Admissible, h]

theorem Response.Admissible.of_success {i : Instr} {r : Response} (h : r.st = 0) : r.Admissible i := by
  simp [Admissible, h]

theorem Response.Admissible.of_sesRead {r : Response} (h : r.data = 0) : r.Admissible .sesRead := by
  simp [Admissible, h]

/-- The responses of an operation: none while a transport call has not returned, otherwise exactly one. -/
theorem Effect.responds {i : Instr} {s t : State} (h : Effect i s t) (hpending : s.pending = none)
    (hstart : i ≠ .busStartPeriodic) (hread : i ≠ .busReadMeasurement) :
    (t.pending ≠ none ∧ t.responses = s.responses) ∨
    (t.pending = none ∧ ∃ r, t.responses = s.responses ++ [r] ∧ r.Admissible i) := by
  cases h with
  | waitsInTx | waitsInReq | waitsInRx => exact .inl ⟨by simp, by simp⟩
  | sentAlone e hi => exact absurd hi (not_or.mpr ⟨hstart, hread⟩)
  | refusedRd r f => exact .inr ⟨by simp [hpending], _, State.refuse_responses .., .of_refused rfl⟩
  | refusedRead => exact .inr ⟨by simp [hpending], _, State.refuse_responses .., .of_refused rfl⟩
  | crcInit | crcByte | reads | started | goodFrame =>
    exact .inr ⟨by simp [hpending], _, rfl, .of_success rfl⟩
  | startFailed hi => exact .inr ⟨hpending, _, rfl, by simp [Response.Admissible, hi]⟩
  | readFailed hi | wrongLength _ hi | badFrame _ hi =>
    exact .inr ⟨by simp [hpending], _, rfl, hi ▸ .of_sesRead rfl⟩

/-- Settles O54: a legal word's instruction responds as `Effect.responds` says, and an illegal word is refused, with
one response too. -/
theorem oneResponsePerOperation : Obligations.OneResponsePerOperation := by
  intro s t w rest hinputs h
  rcases step_cases h with ⟨hi, -⟩ | ⟨_, hi, -⟩ | ⟨p, rest', i, hi, hpending, hd, hexec⟩ |
      ⟨_, rest', hi, hpending, -, rfl⟩ <;>
    rw [hinputs] at hi <;> cases hi
  · obtain ⟨hwf, henc⟩ := decode_eq_some_iff.mp hd
    have hsesStart : w = 0x200000 ↔ i = .sesStart := operationWord_eq_iff hwf rfl henc rfl
    have hsesRead : w = 0x210000 ↔ i = .sesRead := operationWord_eq_iff hwf rfl henc rfl
    rw [ne_eq w, hsesStart, ne_eq w, hsesRead]
    have hresponds := (exec_effect hexec).responds hpending (by rintro rfl; cases henc) (by rintro rfl; cases henc)
    obtain ⟨hwaits, hsame⟩ | ⟨hended, r, hr, hadmissible⟩ := hresponds
    · exact ⟨fun _ => hsame, fun hnone => absurd hnone hwaits⟩
    · exact ⟨fun hne => absurd hended hne, fun _ => ⟨r, hr, fun hacc => (hadmissible hacc).1,
        fun hacc => (hadmissible hacc).2.1, fun hacc => (hadmissible hacc).2.2⟩⟩
  · exact ⟨by simp [hpending], fun _ => ⟨_, State.refuse_responses .., by simp, by simp, by simp⟩⟩

/-- A `SES.READ` that reports Success leaves a reading (R163). -/
theorem Effect.reading_of_success {s t : State} {d : Data} (h : Effect .sesRead s t)
    (hresponse : t.responses = s.responses ++ [⟨true, 0, d⟩]) : ∃ x, t.reading = some x := by
  cases h with
  | goodFrame F => exact ⟨convertFrame F, rfl⟩
  | reads _ _ _ _ hne => exact absurd rfl hne
  | crcInit hi | crcByte _ hi | refusedRd _ _ hi | started hi | startFailed hi => cases hi
  | sentAlone _ hi => simp at hi
  | _ => simp at hresponse

/-- The host's calls, when the first instruction only responds. -/
theorem hostCalls_cons_of_respond {i : Instr} {is : List Instr} {s u : State} {d : Data} {rs : List Response}
    (hwf : i.wellFormed = true) (hpending : s.pending = none) (hexec : exec i s = .next (s.respond .success d))
    (hrest : hostCalls is (s.respond .success d) = .answered rs u) :
    hostCalls (i :: is) s = .answered (⟨true, 0, d⟩ :: rs) u := by
  have hfirst : hostCall i s = .answered ⟨true, 0, d⟩ (s.respond .success d) :=
    hostCall_of_response (decode_encode hwf) hpending hexec rfl
  simp [hostCalls, hfirst, hrest]

/-- The host's three register reads, when there is a reading: each returns its register. -/
theorem hostCalls_readDataReads {t : State} {x : Reading} (hpending : t.pending = none)
    (hreading : t.reading = some x) :
    hostCalls readDataReads t = .answered
      [⟨true, 0, x.co2Ppm.zeroExtend 32⟩, ⟨true, 0, x.tempQ16⟩, ⟨true, 0, x.humiQ16⟩]
      { t with responses := t.responses ++
        [⟨true, 0, x.co2Ppm.zeroExtend 32⟩, ⟨true, 0, x.tempQ16⟩, ⟨true, 0, x.humiQ16⟩] } := by
  refine hostCalls_cons_of_respond rfl hpending (exec_rd_co2Ppm hreading) ?_
  refine hostCalls_cons_of_respond rfl hpending (exec_rd_tempQ16 hreading) ?_
  refine hostCalls_cons_of_respond rfl hpending (exec_rd_humiQ16 hreading) ?_
  simp [hostCalls, State.respond, Status.code]

/-- The physical values the host makes of the three registers' data (R92). -/
theorem sensorReading_of_registers (x : Reading) : sensorReading (x.co2Ppm.zeroExtend 32) x.tempQ16 x.humiQ16 =
    ⟨x.co2Ppm, (x.tempQ16.toInt : ℚ) / 65536, (x.humiQ16.toNat : ℚ) / 65536⟩ := by
  simp [sensorReading, BitVec.extractLsb'_setWidth_of_le]

theorem Response.isSuccess_eq_false {r : Response} (h : r.acc = false ∨ r.st ≠ 0) : r.isSuccess = false := by
  rcases h with h | h
  · simp [isSuccess, h]
  · simpa [isSuccess, Status.code] using fun _ => h

/-- Settles O60: after Success there is a reading (`Effect.reading_of_success`) and no call is pending
(`Effect.responds`), so the three reads return it; any other response ends the procedure. -/
theorem readDataReadsThenFetches : Obligations.ReadDataReadsThenFetches := by
  intro s t hpending hexec
  have hcall : ∀ {r : Response}, t.responses = s.responses ++ [r] → hostCall .sesRead s = .answered r t :=
    hostCall_of_response (decode_encode rfl) hpending hexec
  constructor
  · intro d hresponse
    obtain ⟨x, hreading⟩ := (exec_effect hexec).reading_of_success hresponse
    refine ⟨x, hreading, ?_⟩
    obtain ⟨-, hsame⟩ | ⟨hended, -⟩ := (exec_effect hexec).responds hpending (by simp) (by simp)
    · simp [hresponse] at hsame
    · simp [readData, hcall hresponse, Response.isSuccess, Status.code, hostCalls_readDataReads hended hreading,
        sensorReadingOf, ← sensorReading_of_registers]
  · intro r hresponse hbad
    simp [readData, hcall hresponse, Response.isSuccess_eq_false hbad]

end Sys2Proof.Machine
end

section
/-! SUPPORT. `crc8_update` as an operation on bits: it is linear over exclusive-or, and no accumulator but 0 is
shifted to 0 (40_crc.md R110, R118 facts 1 and 2). -/

namespace Sys2Proof.Machine

/-- No byte but 0 is shifted to 0: the polynomial has a constant term, so feeding it back sets bit 0, and without
feedback the byte is doubled. -/
theorem eq_zero_of_crcShift_eq_zero {a : Byte} (h : crcShift a = 0#8) : a = 0#8 := by
  cases hmsb : a.msb with
  | true =>
    have hbit : (crcShift a).getLsbD 0 = true := by simp [crcShift, hmsb, crcPoly]
    simp [h] at hbit
  | false =>
    have hlt : 2 * a.toNat < 2 ^ 8 := BitVec.msb_eq_false_iff_two_mul_lt.mp hmsb
    have htwice : (crcShift a).toNat = 2 * a.toNat := by
      simp [crcShift, hmsb, Nat.shiftLeft_eq]
      omega
    exact BitVec.eq_of_toNat_eq (by simpa [h] using htwice.symm)

theorem crcShift_bijective : Function.Bijective crcShift := by
  refine Finite.injective_iff_bijective.mp fun a b h => ?_
  rw [← BitVec.xor_eq_zero_iff] at h ⊢
  exact eq_zero_of_crcShift_eq_zero (by rw [crcShift_xor, h])

theorem crcShifts_xor (n : Nat) (a b : Byte) : crcShifts n (a ^^^ b) = crcShifts n a ^^^ crcShifts n b := by
  induction n generalizing a b with
  | zero => rfl
  | succ n ih => rw [crcShifts, crcShift_xor, ih]; rfl

theorem crcShifts_bijective (n : Nat) : Function.Bijective (crcShifts n) := by
  induction n with
  | zero => exact Function.bijective_id
  | succ n ih => exact ih.comp crcShift_bijective

theorem crc8Update_xor (a a' b b' : Byte) :
    crc8Update (a ^^^ a') (b ^^^ b') = crc8Update a b ^^^ crc8Update a' b' := by
  rw [crc8Update, crc8Update, crc8Update, ← crcShifts_xor]
  ac_rfl

/-- The byte equal to the accumulator folds to zero (R115). -/
@[simp] theorem crc8Update_self (b : Byte) : crc8Update b b = 0#8 := by
  rw [crc8Update, BitVec.xor_self]; rfl

theorem crc8Update_bijective_acc (b : Byte) : Function.Bijective fun acc => crc8Update acc b :=
  (crcShifts_bijective 8).comp
    (Finite.injective_iff_bijective.mp fun _ _ h => (BitVec.xor_left_inj b).mp h)

theorem crc8Update_bijective_byte (acc : Byte) : Function.Bijective (crc8Update acc) :=
  (crcShifts_bijective 8).comp
    (Finite.injective_iff_bijective.mp fun _ _ h => (BitVec.xor_right_inj acc).mp h)

end Sys2Proof.Machine
end

section
/-! The facts of R118 on the update and on whole lists (40_crc.md R112, R113, R118 to R120). -/

namespace Sys2Proof.Machine

/-- Settles O17: linearity is `crc8Update_xor`, and 0 is neutral for exclusive-or. -/
theorem crcUpdateIsLinear : Obligations.CrcUpdateIsLinear :=
  ⟨crc8Update_xor, fun _ _ => congrArg (crcShifts 8) BitVec.zero_xor.symm⟩

/-- Settles O18: the exclusive-or with a fixed byte and the eight iterations are bijections
(`crcShifts_bijective`). -/
theorem crcUpdateIsBijective : Obligations.CrcUpdateIsBijective :=
  ⟨crc8Update_bijective_acc, crc8Update_bijective_byte⟩

/-- Settles O19: the last byte folded is the accumulator itself (`crc8Update_self`). -/
theorem appendingTheChecksumGivesZero : Obligations.AppendingTheChecksumGivesZero := by
  intro bytes
  rw [crc8_concat, crc8Update_self]; rfl

/-- The checksum of the two-byte payload with the number `n`, high byte first. -/
def payloadCrc (n : Nat) : Byte := crc8 [BitVec.ofNat 8 (n / 256), BitVec.ofNat 8 (n % 256)]

theorem payloadCrc_eq (n : Nat) : payloadCrc n =
    crc8Update (crc8Update 0xFF (BitVec.ofNat 8 (n / 256))) (BitVec.ofNat 8 (n % 256)) := rfl

/-- With the same high byte, the checksum determines the payload. -/
theorem eq_of_payloadCrc_eq {n m : Nat} (hhigh : n / 256 = m / 256) (h : payloadCrc n = payloadCrc m) : n = m := by
  rw [payloadCrc_eq, payloadCrc_eq, hhigh] at h
  have hlow : n % 256 = m % 256 := by
    simpa [← BitVec.toNat_inj] using (crc8Update_bijective_byte _).injective h
  omega

/-- Every high byte can be completed to a payload with the given checksum. -/
theorem exists_payloadCrc_eq (c : Byte) {h : Nat} (hh : h < 256) :
    ∃ n < 65536, payloadCrc n = c ∧ n / 256 = h := by
  obtain ⟨b, hb⟩ := (crc8Update_bijective_byte (crc8Update 0xFF (BitVec.ofNat 8 h))).surjective c
  have hlt : b.toNat < 256 := b.isLt
  have hdiv : (256 * h + b.toNat) / 256 = h := by omega
  have hmod : (256 * h + b.toNat) % 256 = b.toNat := by omega
  exact ⟨256 * h + b.toNat, by omega, by simpa [payloadCrc_eq, hdiv, hmod] using hb, hdiv⟩

/-- Settles O20: the payloads with checksum `c` are one for each high byte (`eq_of_payloadCrc_eq`,
`exists_payloadCrc_eq`). -/
theorem eachChecksumHas256Payloads : Obligations.EachChecksumHas256Payloads := by
  intro c
  change ((Finset.range 65536).filter fun n => payloadCrc n = c).card = 256
  rw [← Finset.card_range 256]
  refine Finset.card_bij (fun n _ => n / 256) (fun n hn => ?_) (fun n hn m hm hhigh => ?_) (fun h hh => ?_)
  · simp only [Finset.mem_filter, Finset.mem_range] at hn ⊢
    omega
  · obtain ⟨-, hn⟩ := Finset.mem_filter.mp hn
    obtain ⟨-, hm⟩ := Finset.mem_filter.mp hm
    exact eq_of_payloadCrc_eq hhigh (hn.trans hm.symm)
  · obtain ⟨n, hlt, hcrc, hhigh⟩ := exists_payloadCrc_eq c (Finset.mem_range.mp hh)
    exact ⟨n, Finset.mem_filter.mpr ⟨Finset.mem_range.mpr hlt, hcrc⟩, hhigh⟩

/-- The printed table lists the eight iterations of each byte (R118 fact 1). -/
theorem crcTable_eq : crcTable = (List.range 256).map fun n => crcShifts 8 (BitVec.ofNat 8 n) := by decide +kernel

theorem crcTableEntry_eq (x : Byte) : crcTableEntry x = crcShifts 8 x := by
  have hlt : x.toNat < 256 := x.isLt
  simp [crcTableEntry, crcTable_eq, List.getElem?_range hlt]

/-- Settles O21: the two folds take the same step (`crcTableEntry_eq`). -/
theorem tableDrivenCrcAgrees : Obligations.TableDrivenCrcAgrees := by
  intro bytes
  exact List.foldl_ext _ _ _ fun acc b _ => crcTableEntry_eq (acc ^^^ b)

/-- Settles O15: the bit-serial fold, evaluated on the spec's own examples. -/
theorem crcReferenceValues : Obligations.CrcReferenceValues := by
  refine ⟨crc8_nil, ?_, ?_, ?_, ?_⟩ <;> decide +kernel

end Sys2Proof.Machine
end

section
/-! The three operations of the CRC unit, and the accumulator between them (40_crc.md R114 to R117). -/

namespace Sys2Proof.Machine

/-- Settles O12: the words of opcode `0x01` decode as `decode_opWord_crcInit` says. -/
theorem crcInitLoadsTheInitialValue : Obligations.CrcInitLoadsTheInitialValue :=
  ⟨decode_encode (i := .crcInit) rfl, fun imm himm => by simpa using himm, fun _ => rfl⟩

/-- Settles O13: the words of opcode `0x02` are those of `CRC.BYTE`, or illegal by their upper half
(`decode_opWord_crcByte`), and the corner cases are `crc8Update_self` and three evaluations of the update. -/
theorem crcByteFoldsTheByte : Obligations.CrcByteFoldsTheByte := by
  refine ⟨fun b => decode_encode (i := .crcByte b) rfl, fun hi lo hhi => ?_, fun _ _ => rfl,
    by decide, crc8Update_self, by decide, by decide⟩
  have hupper : (hi ++ lo).extractLsb' 8 8 = hi := BitVec.extractLsb'_append_eq_left
  simpa [hupper] using hhi

/-- Settles O14: `CRC.READ` responds with the accumulator, whose zero extension has no bit above bit 7. -/
theorem crcReadReturnsTheAccumulator : Obligations.CrcReadReturnsTheAccumulator := by
  refine ⟨decode_encode (i := .crcRead) rfl, fun _ => rfl, fun s => ?_⟩
  apply BitVec.eq_of_getLsbD_eq; intro i hi
  simp

/-- What one instruction leaves in the accumulator, whatever its outcome (R22). -/
theorem exec_crc {i : Instr} {s t : State} (h : exec i s = .next t) : t.crc = crcAfter [i] s.crc := by
  cases i with
  | crcInit => cases h; rfl
  | crcByte b => cases h; rfl
  | _ => exact (exec_effect h).crc_eq (by simp) (by simp)

/-- A step on the word of a well-formed instruction that answers a next state ran the instruction: with a call
pending it would have faulted. -/
theorem exec_of_step_encoded {i : Instr} {s t : State} {rest : List HostInput} (hwf : i.wellFormed = true)
    (hinputs : s.inputs = .issue (encode i) :: rest) (h : step s = .next t) :
    exec i { s with inputs := rest } = .next t := by
  by_cases hpending : s.pending = none
  · exact (step_of_encoded hwf hinputs hpending).symm.trans h
  · obtain ⟨c, hc⟩ := Option.ne_none_iff_exists'.mp hpending
    rw [step_of_early hinputs hc] at h
    cases h

/-- Settles O23: one instruction leaves what `crcAfter` says of it alone (`exec_crc`) and, like every instruction,
the rest of the host's words (`Effect.inputs_eq`). -/
theorem otherOperationsLeaveTheCrcAlone : Obligations.OtherOperationsLeaveTheCrcAlone := by
  intro is
  induction is with
  | nil =>
    intro s t rest _ _ hrun
    cases hrun
    rfl
  | cons i is ih =>
    intro s t rest hwf hinputs hrun
    obtain ⟨hi, his⟩ := List.forall_mem_cons.mp hwf
    obtain ⟨u, hstep, hrun⟩ := next_of_core_run hrun
    have hexec := exec_of_step_encoded hi hinputs hstep
    calc t.crc = crcAfter is u.crc := ih u t rest his (exec_effect hexec).inputs_eq hrun
      _ = crcAfter is (crcAfter [i] s.crc) := by rw [exec_crc hexec]

end Sys2Proof.Machine
end

section
/-! The bit-serial update as division of polynomials over the field of two elements (40_crc.md R110, R112). -/

namespace Sys2Proof.Machine

open Polynomial

/-- The polynomial whose coefficients are the bits of the byte. -/
noncomputable def bytePoly (a : Byte) : (ZMod 2)[X] := ∑ i ∈ Finset.range 8, if a.getLsbD i then X ^ i else 0

/-- `CRC_POLY` with the term x^8 that the byte leaves out (R112). -/
noncomputable def crcModulus : (ZMod 2)[X] := X ^ 8 + X ^ 5 + X ^ 4 + 1

theorem bytePoly_crcPoly : bytePoly crcPoly = X ^ 5 + X ^ 4 + 1 := by
  simp [bytePoly, crcPoly, Finset.sum_range_succ]
  ring

theorem bytePoly_xor (a b : Byte) : bytePoly (a ^^^ b) = bytePoly a + bytePoly b := by
  rw [bytePoly, bytePoly, bytePoly, ← Finset.sum_add_distrib]
  refine Finset.sum_congr rfl fun i _ => ?_
  rw [BitVec.getLsbD_xor]
  cases a.getLsbD i <;> cases b.getLsbD i <;> simp [CharTwo.add_self_eq_zero]

/-- Shifting left is multiplying by x, but for the top bit, which is shifted out (R112). -/
theorem X_mul_bytePoly (a : Byte) : X * bytePoly a = bytePoly (a <<< 1) + if a.msb then X ^ 8 else 0 := by
  have hsum : bytePoly (a <<< 1) = ∑ i ∈ Finset.range 7, if a.getLsbD i then X ^ (i + 1) else 0 := by
    have hbit : (a <<< 1).getLsbD 0 = false := by simp
    rw [bytePoly, Finset.sum_range_succ', hbit, if_neg Bool.false_ne_true, add_zero]
    refine Finset.sum_congr rfl fun i hi => ?_
    have hlt : i + 1 < 8 := Nat.succ_lt_succ (Finset.mem_range.mp hi)
    have hnext : (a <<< 1).getLsbD (i + 1) = a.getLsbD i := by
      rw [BitVec.getLsbD_shiftLeft]
      simp [hlt]
    rw [hnext]
  have hmsb : a.msb = a.getLsbD 7 := by simp [BitVec.msb_eq_getLsbD_last]
  rw [hsum, hmsb, bytePoly, Finset.mul_sum, Finset.sum_range_succ]
  simp [pow_succ']

/-- One iteration multiplies by x modulo the polynomial: what is shifted out is x^8, and what is added back is
the rest of the polynomial. -/
theorem crcModulus_dvd_crcShift (a : Byte) : crcModulus ∣ X * bytePoly a - bytePoly (crcShift a) := by
  rw [X_mul_bytePoly]
  cases hmsb : a.msb with
  | false => simp [crcShift, hmsb]
  | true =>
    have hdiff : bytePoly (a <<< 1) + X ^ 8 - bytePoly (crcShift a) = crcModulus := by
      rw [crcShift, hmsb, if_pos rfl, bytePoly_xor, bytePoly_crcPoly, crcModulus, add_sub_add_left_eq_sub,
        CharTwo.sub_eq_add]
      ring
    simp [hdiff]

/-- `n` iterations multiply by x^n modulo the polynomial. -/
theorem crcModulus_dvd_crcShifts (n : Nat) (a : Byte) :
    crcModulus ∣ X ^ n * bytePoly a - bytePoly (crcShifts n a) := by
  induction n generalizing a with
  | zero => simp [crcShifts]
  | succ n ih =>
    have hsplit : X ^ (n + 1) * bytePoly a - bytePoly (crcShifts (n + 1) a) =
        X ^ n * (X * bytePoly a - bytePoly (crcShift a)) +
          (X ^ n * bytePoly (crcShift a) - bytePoly (crcShifts n (crcShift a))) := by
      rw [crcShifts]; ring
    rw [hsplit]
    exact dvd_add ((crcModulus_dvd_crcShift a).mul_left _) (ih (crcShift a))

/-- Settles O16: the update is eight iterations on the exclusive-or (`crcModulus_dvd_crcShifts`). -/
theorem crcUpdateIsPolynomialDivision : Obligations.CrcUpdateIsPolynomialDivision := by
  intro acc b
  exact crcModulus_dvd_crcShifts 8 (acc ^^^ b)

end Sys2Proof.Machine
end

section
/-! The converter's operations, and the numbers its registers stand for (41_parser_convert.md R135 to R139, R142,
R145 to R147). -/

namespace Sys2Proof.Machine

/-- A number below `2 ^ k` has no bit from `k` on. -/
theorem getLsbD_of_toNat_lt {w k i : Nat} {d : BitVec w} (h : d.toNat < 2 ^ k) (hi : k ≤ i) :
    d.getLsbD i = false :=
  Nat.testBit_lt_two_pow (h.trans_le (Nat.pow_le_pow_right Nat.two_pos hi))

/-- A signed number of `k + 1` bits repeats its sign from bit `k` on: it or its complement is below `2 ^ k`. -/
theorem getLsbD_of_toInt_bounds {w k i : Nat} {d : BitVec w} (hlow : -2 ^ k ≤ d.toInt) (hhigh : d.toInt < 2 ^ k)
    (hi : k ≤ i) (hiw : i < w) : d.getLsbD i = d.msb := by
  have hlt : d.toNat < 2 ^ w := d.isLt
  cases hmsb : d.msb with
  | false =>
    rw [BitVec.toInt_eq_toNat_of_msb hmsb] at hhigh
    exact getLsbD_of_toNat_lt (by exact_mod_cast hhigh) hi
  | true =>
    have hnot : (~~~d).toNat < 2 ^ k := by
      rw [BitVec.toInt_eq_msb_cond, hmsb, if_pos rfl] at hlow
      rw [BitVec.toNat_not]
      have hcast : ((2 ^ w : Nat) : Int) - d.toNat ≤ ((2 ^ k : Nat) : Int) := by push_cast at hlow ⊢; omega
      omega
    simpa [hiw] using getLsbD_of_toNat_lt hnot hi

/-- Settles O24: opcode `0x10` takes every operand (`decode_opWord_cnvCo2`), and a zero extension has no upper
bits. -/
theorem cnvCo2RespondsTheRawValue : Obligations.CnvCo2RespondsTheRawValue := by
  refine ⟨decode_opWord_cnvCo2, fun _ _ => rfl, fun raw => ?_⟩
  apply BitVec.eq_of_getLsbD_eq; intro i hi
  simp

/-- Settles O25: the data is `tempQ16`, whose signed value is `tempQ16_toInt`. -/
theorem cnvTempRespondsTheTemperature : Obligations.CnvTempRespondsTheTemperature :=
  ⟨decode_opWord_cnvTemp, fun _ raw => ⟨tempQ16 raw, tempQ16_toInt raw, rfl⟩, by decide⟩

/-- Settles O26: the data is `humiQ16`, whose value is `humiQ16_toNat`. -/
theorem cnvHumiRespondsTheHumidity : Obligations.CnvHumiRespondsTheHumidity :=
  ⟨decode_opWord_cnvHumi, fun _ raw => ⟨humiQ16 raw, humiQ16_toNat raw, rfl⟩, by decide⟩

/-- Settles O27: the registers hold the integers exactly (`tempQ16_toInt`, `humiQ16_toNat`), and
`2949120 = 45 * 65536`. -/
theorem scaledRegistersAreExact : Obligations.ScaledRegistersAreExact := by
  intro raw
  rw [tempQ16_toInt, humiQ16_toNat]
  push_cast
  exact ⟨by ring, rfl⟩

/-- Settles O28: linear arithmetic on `tempQ16_toInt` and `humiQ16_toNat`; 175 does not divide 2949120, so no
temperature is 0, and the bounds fix the upper bits. -/
theorem converterRangeAndOrder : Obligations.ConverterRangeAndOrder := by
  have hraw : ∀ raw : Half, raw.toNat ≤ 65535 := fun raw => Nat.le_of_lt_succ raw.isLt
  have htemp : ∀ raw : Half, -2949120 ≤ (tempQ16 raw).toInt ∧ (tempQ16 raw).toInt ≤ 8519505 ∧
      (tempQ16 raw).toInt ≠ 0 := fun raw => by
    have := hraw raw
    rw [tempQ16_toInt]
    omega
  have hhumi : ∀ raw : Half, (humiQ16 raw).toNat ≤ 6553500 := fun raw => by
    have := hraw raw
    rw [humiQ16_toNat]
    omega
  refine ⟨htemp, hhumi, fun x y hlt => ?_, fun raw => ?_, fun raw i hi hi32 => ?_, fun raw i hi => ?_⟩
  · rw [tempQ16_toInt, tempQ16_toInt, humiQ16_toNat, humiQ16_toNat]
    exact ⟨by omega, by omega, hlt⟩
  · rw [tempQ16_toInt]
    omega
  · obtain ⟨hlow, hhigh, -⟩ := htemp raw
    exact getLsbD_of_toInt_bounds (k := 24) (by omega) (by omega) hi hi32
  · exact getLsbD_of_toNat_lt (k := 23) ((hhumi raw).trans_lt (by decide)) hi

end Sys2Proof.Machine
end

section
/-! The frame parser by its bytes, and frames built from three raw values (41_parser_convert.md R131, R132, R134,
R143). -/

namespace Sys2Proof.Machine

/-! ### The payload as one number (R132) -/

/-- A raw value is its two payload bytes side by side. -/
theorem raw16_eq_append (F : Frame) (k : Fin 3) : raw16 F k = payloadHigh F k ++ payloadLow F k := by
  apply BitVec.eq_of_getLsbD_eq; intro i hi
  rw [BitVec.getLsbD_append]
  by_cases h : i < 8
  · simp [raw16, h, hi]
  · have hout : (payloadLow F k).getLsbD i = false := BitVec.getLsbD_of_ge _ _ (Nat.le_of_not_lt h)
    simp [raw16, h, hi, hout]

theorem raw16_toNat (F : Frame) (k : Fin 3) :
    (raw16 F k).toNat = 256 * (payloadHigh F k).toNat + (payloadLow F k).toNat := by
  rw [raw16_eq_append, BitVec.toNat_append, ← Nat.shiftLeft_add_eq_or_of_lt (payloadLow F k).isLt,
    Nat.shiftLeft_eq, Nat.mul_comm]

/-- Settles O30: `raw16_toNat` for each sub-field. -/
theorem payloadsAreBigEndian : Obligations.PayloadsAreBigEndian :=
  fun F => ⟨raw16_toNat F 0, raw16_toNat F 1, raw16_toNat F 2⟩

/-! ### Validation (R131, R134) -/

theorem fieldOk_iff (F : Frame) (k : Fin 3) :
    fieldOk F k = true ↔ crc8 [payloadHigh F k, payloadLow F k] = checksumByte F k := beq_iff_eq

/-- Validation reads the three bytes of its sub-field and nothing else. -/
theorem fieldOk_congr {F G : Frame} {k : Fin 3} (h : ∀ i : Fin 9, i.val / 3 = k.val → F[i] = G[i]) :
    fieldOk F k = fieldOk G k := by
  have hhigh : payloadHigh F k = payloadHigh G k := h (payloadOffset k) (by simp [payloadOffset])
  have hlow : payloadLow F k = payloadLow G k := h ⟨3 * k.val + 1, by omega⟩ (by simp; omega)
  have hsum : checksumByte F k = checksumByte G k := h (checksumOffset k) (by simp [checksumOffset]; omega)
  rw [fieldOk, fieldOk, hhigh, hlow, hsum]

/-- Settles O31: `fieldOk_iff` for each sub-field, and `fieldOk_congr`. -/
theorem fieldOkComparesTheChecksum : Obligations.FieldOkComparesTheChecksum :=
  ⟨fun F => ⟨fieldOk_iff F 0, fieldOk_iff F 1, fieldOk_iff F 2⟩, fun _ _ _ => fieldOk_congr⟩

/-- The sub-field found bad fails, and all before it validate. -/
theorem firstBad_eq_some_iff (F : Frame) (k : Fin 3) :
    firstBad F = some k ↔ fieldOk F k = false ∧ ∀ j : Fin 3, j < k → fieldOk F j = true := by
  match k with
  | 0 => simp [firstBad, List.find?_cons_eq_some]
  | 1 => simp [firstBad, List.find?_cons_eq_some, and_comm]
  | 2 => simp [firstBad, List.find?_cons_eq_some, Fin.forall_fin_succ]; tauto

/-- Settles O29: `firstBad_eq_some_iff` and `firstBad_eq_none`. -/
theorem firstMismatchInOrder : Obligations.FirstMismatchInOrder :=
  ⟨firstBad_eq_some_iff, firstBad_eq_none⟩

theorem parseFrame_of_good {F : Frame} (h : firstBad F = none) : parseFrame F = .success (convertFrame F) := by
  simp [parseFrame, h]

theorem parseFrame_of_bad {F : Frame} {k : Fin 3} (h : firstBad F = some k) : parseFrame F = .checksumError := by
  simp [parseFrame, h]

/-! ### Frames built from raw values (R143) -/

theorem firstBad_buildFrame (c t h : Half) : firstBad (buildFrame c t h) = none :=
  (firstBad_eq_none _).mpr fun k => (fieldOk_iff _ k).mpr (match k with | 0 | 1 | 2 => rfl)

section
variable (c t h : Half)

@[simp] theorem raw16_buildFrame_zero : raw16 (buildFrame c t h) 0 = c :=
  (raw16_eq_append _ 0).trans BitVec.extractLsb'_append_extractLsb'

@[simp] theorem raw16_buildFrame_one : raw16 (buildFrame c t h) 1 = t :=
  (raw16_eq_append _ 1).trans BitVec.extractLsb'_append_extractLsb'

@[simp] theorem raw16_buildFrame_two : raw16 (buildFrame c t h) 2 = h :=
  (raw16_eq_append _ 2).trans BitVec.extractLsb'_append_extractLsb'

end

/-- A frame that validates is the one built from its raw values. -/
theorem buildFrame_raw16 {F : Frame} (h : firstBad F = none) :
    buildFrame (raw16 F 0) (raw16 F 1) (raw16 F 2) = F := by
  have hhigh : ∀ k, (raw16 F k).extractLsb' 8 8 = payloadHigh F k := fun k => by
    rw [raw16_eq_append, BitVec.extractLsb'_append_eq_left]
  have hlow : ∀ k, (raw16 F k).extractLsb' 0 8 = payloadLow F k := fun k => by
    rw [raw16_eq_append, BitVec.extractLsb'_append_eq_right]
  have hsum : ∀ k, crc8 [payloadHigh F k, payloadLow F k] = checksumByte F k := fun k =>
    (fieldOk_iff F k).mp ((firstBad_eq_none F).mp h k)
  simp only [buildFrame, hhigh, hlow, hsum]
  ext i hi
  match i with
  | 0 | 1 | 2 | 3 | 4 | 5 | 6 | 7 | 8 => rfl

/-- Settles O33: a built frame validates (`firstBad_buildFrame`) and carries its raw values; a frame that validates
is built from its own (`buildFrame_raw16`). -/
theorem frameRoundTrip : Obligations.FrameRoundTrip := by
  refine ⟨fun c t h => ⟨_, parseFrame_of_good (firstBad_buildFrame c t h), ?_, ?_, ?_⟩, fun F r hr => ?_⟩
  · exact raw16_buildFrame_zero c t h
  · simp [convertFrame, tempQ16_toInt]
  · simp [convertFrame, humiQ16_toNat]
  · have hgood : firstBad F = none := by
      obtain ⟨hgood, -⟩ | ⟨-, hbad⟩ := parseFrame_cases F
      · exact hgood
      · simp [hbad] at hr
    refine ⟨(raw16 F 0, raw16 F 1, raw16 F 2), (buildFrame_raw16 hgood).symm, fun x hx => ?_⟩
    simp [hx]

end Sys2Proof.Machine
end

section
/-! SUPPORT. A linear map of bit patterns, as a sum of columns, and the number of patterns of each weight that it
takes to a given value (40_crc.md R118 fact 5). -/

namespace Sys2Proof.Machine

variable {m n : Nat}

/-- The exclusive-or of the columns `c i` over the set bits `i` of `e` below `k`. -/
def columnSum (c : Nat → BitVec m) (e : BitVec n) : Nat → BitVec m
  | 0 => 0#m
  | k + 1 => columnSum c e k ^^^ if e.getLsbD k then c k else 0#m

/-- How many patterns of `n` bits, `w` of them set, have the column sum `s` (`ncard_patternsWithSum`). The top bit
is clear or set. -/
def countPatterns (c : Nat → BitVec m) : (n w : Nat) → BitVec m → Nat
  | _, 0, s => if s = 0#m then 1 else 0
  | 0, _ + 1, _ => 0
  | n + 1, w + 1, s => countPatterns c n (w + 1) s + countPatterns c n w (s ^^^ c n)

/-- The patterns of `n` bits, `w` of them set, whose column sum is `s`. -/
def patternsWithSum (c : Nat → BitVec m) (n w : Nat) (s : BitVec m) : Set (BitVec n) :=
  {e | ones e = w ∧ columnSum c e n = s}

/-! ### A pattern as the sum of its bits -/

theorem columnSum_congr {c d : Nat → BitVec m} (e : BitVec n) {k : Nat} (h : ∀ i < k, c i = d i) :
    columnSum c e k = columnSum d e k := by
  induction k with
  | zero => rfl
  | succ k ih => rw [columnSum, columnSum, ih fun i hi => h i (Nat.lt_succ_of_lt hi), h k (Nat.lt_succ_self k)]

/-- A map that is linear over exclusive-or commutes with the sum. -/
theorem map_columnSum {l : Nat} {f : BitVec m → BitVec l} (hxor : ∀ x y, f (x ^^^ y) = f x ^^^ f y)
    (c : Nat → BitVec m) (e : BitVec n) (k : Nat) :
    f (columnSum c e k) = columnSum (fun i => f (c i)) e k := by
  have hzero : f 0#m = 0#l := by simpa using hxor 0#m 0#m
  induction k with
  | zero => exact hzero
  | succ k ih => rw [columnSum, columnSum, hxor, ih, apply_ite f, hzero]

theorem columnSum_twoPow_getLsbD (e : BitVec n) {k : Nat} (hk : k ≤ n) (j : Nat) :
    (columnSum (BitVec.twoPow n) e k).getLsbD j = (decide (j < k) && e.getLsbD j) := by
  induction k with
  | zero => simp [columnSum]
  | succ k ih =>
    rw [columnSum, BitVec.getLsbD_xor, ih (Nat.le_of_succ_le hk)]
    have hbit : (if e.getLsbD k then BitVec.twoPow n k else 0#n).getLsbD j = (decide (k = j) && e.getLsbD k) := by
      cases e.getLsbD k <;> simp [BitVec.getLsbD_twoPow, Nat.lt_of_succ_le hk]
    rw [hbit]
    obtain hlt | rfl | hgt := Nat.lt_trichotomy j k
    · simp [hlt, hlt.ne', Nat.lt_succ_of_lt hlt]
    · simp
    · have hout : ¬ j < k + 1 := by omega
      simp [hgt.not_gt, hgt.ne, hout]

/-- A pattern is the exclusive-or of its bits. -/
theorem columnSum_twoPow (e : BitVec n) : columnSum (BitVec.twoPow n) e n = e := by
  apply BitVec.eq_of_getLsbD_eq; intro j hj
  rw [columnSum_twoPow_getLsbD e (Nat.le_refl n), decide_eq_true hj, Bool.true_and]

/-! ### Counting, bit by bit -/

theorem ones_eq_zero_iff (e : BitVec n) : ones e = 0 ↔ e = 0#n := by
  constructor
  · intro h
    apply BitVec.eq_of_getLsbD_eq; intro i hi
    have hclear := List.filter_eq_nil_iff.mp (List.length_eq_zero_iff.mp h) i (List.mem_range.mpr hi)
    simpa using hclear
  · rintro rfl
    simp [ones]

theorem columnSum_zero (c : Nat → BitVec m) (k : Nat) : columnSum c 0#n k = 0#m := by
  induction k with
  | zero => rfl
  | succ k ih => simp [columnSum, ih]

theorem ones_cons (b : Bool) (e : BitVec n) : ones (BitVec.cons b e) = ones e + b.toNat := by
  have hlow : (List.range n).filter (fun i => (BitVec.cons b e).getLsbD i) =
      (List.range n).filter fun i => e.getLsbD i :=
    List.filter_congr fun i hi => by rw [BitVec.getLsbD_cons, if_neg (List.mem_range.mp hi).ne]
  rw [ones, ones, List.range_succ, List.filter_append, List.length_append, hlow]
  cases b <;> simp [BitVec.getLsbD_cons]

theorem columnSum_cons_of_le (c : Nat → BitVec m) (b : Bool) (e : BitVec n) {k : Nat} (hk : k ≤ n) :
    columnSum c (BitVec.cons b e) k = columnSum c e k := by
  induction k with
  | zero => rfl
  | succ k ih =>
    rw [columnSum, columnSum, ih (Nat.le_of_succ_le hk), BitVec.getLsbD_cons, if_neg (Nat.lt_of_succ_le hk).ne]

theorem columnSum_cons (c : Nat → BitVec m) (b : Bool) (e : BitVec n) :
    columnSum c (BitVec.cons b e) (n + 1) = columnSum c e n ^^^ if b then c n else 0#m := by
  rw [columnSum, columnSum_cons_of_le c b e (Nat.le_refl n), BitVec.getLsbD_cons, if_pos rfl]

theorem cons_injective (b : Bool) : Function.Injective (BitVec.cons b : BitVec n → BitVec (n + 1)) := by
  intro x y h
  simpa using congrArg (BitVec.setWidth n) h

theorem cons_mem_image_iff {b b' : Bool} {x : BitVec n} {A : Set (BitVec n)} :
    BitVec.cons b x ∈ BitVec.cons b' '' A ↔ b = b' ∧ x ∈ A := by
  constructor
  · rintro ⟨y, hy, h⟩
    obtain rfl : b' = b := by simpa using congrArg BitVec.msb h
    exact ⟨rfl, cons_injective b' h ▸ hy⟩
  · rintro ⟨rfl, hx⟩
    exact Set.mem_image_of_mem _ hx

theorem cons_mem_patternsWithSum (c : Nat → BitVec m) (b : Bool) (e : BitVec n) (w : Nat) (s : BitVec m) :
    BitVec.cons b e ∈ patternsWithSum c (n + 1) w s ↔
      ones e + b.toNat = w ∧ columnSum c e n = s ^^^ if b then c n else 0#m := by
  rw [patternsWithSum, Set.mem_ofPred_eq, ones_cons, columnSum_cons, xor_eq_iff_left_eq]

/-- The patterns of one more bit: those with the top bit clear, and those with it set. -/
theorem patternsWithSum_succ (c : Nat → BitVec m) (n w : Nat) (s : BitVec m) :
    patternsWithSum c (n + 1) (w + 1) s = BitVec.cons false '' patternsWithSum c n (w + 1) s ∪
      BitVec.cons true '' patternsWithSum c n w (s ^^^ c n) := by
  ext e
  rw [← BitVec.cons_msb_setWidth e, cons_mem_patternsWithSum, Set.mem_union, cons_mem_image_iff, cons_mem_image_iff]
  cases e.msb <;> simp [patternsWithSum]

theorem patternsWithSum_zero (c : Nat → BitVec m) (n : Nat) (s : BitVec m) :
    patternsWithSum c n 0 s = {e | e = 0#n ∧ s = 0#m} := by
  ext e
  rw [patternsWithSum, Set.mem_ofPred_eq, Set.mem_ofPred_eq, ones_eq_zero_iff]
  refine and_congr_right fun he => ?_
  rw [he, columnSum_zero, eq_comm]

/-- `countPatterns` counts: with no bit set there is the pattern 0 alone, and otherwise the top bit splits the
patterns. -/
theorem ncard_patternsWithSum (c : Nat → BitVec m) (n w : Nat) (s : BitVec m) :
    (patternsWithSum c n w s).ncard = countPatterns c n w s := by
  fun_induction countPatterns c n w s with
  | case1 n => simp [patternsWithSum_zero]
  | case2 n s hs => simp [patternsWithSum_zero, hs]
  | case3 w s =>
    have hempty : patternsWithSum c 0 (w + 1) s = ∅ :=
      Set.eq_empty_of_forall_notMem fun e ⟨hones, _⟩ => Nat.succ_ne_zero w hones.symm
    rw [hempty, Set.ncard_empty]
  | case4 n w s ihclear ihset =>
    have hdisjoint : Disjoint (BitVec.cons false '' patternsWithSum c n (w + 1) s)
        (BitVec.cons true '' patternsWithSum c n w (s ^^^ c n)) := by
      rw [Set.disjoint_left]
      rintro _ ⟨x, -, rfl⟩ hx
      exact Bool.false_ne_true (cons_mem_image_iff.mp hx).1
    rw [patternsWithSum_succ, Set.ncard_union_eq hdisjoint, Set.ncard_image_of_injective _ (cons_injective _),
      Set.ncard_image_of_injective _ (cons_injective _), ihclear, ihset]

end Sys2Proof.Machine
end

section
/-! Bits flipped in one sub-field of a frame that validates (41_parser_convert.md R141; 40_crc.md R118 fact 5). -/

namespace Sys2Proof.Machine

/-- What an error pattern over `{payload high, payload low, checksum}` adds to the difference between the CRC of the
payload and the checksum byte. -/
def errorSyndrome (e : BitVec 24) : Byte :=
  crc8Update (crc8Update 0#8 (e.extractLsb' 16 8)) (e.extractLsb' 8 8) ^^^ e.extractLsb' 0 8

/-! ### The syndrome decides -/

/-- The CRC of a payload with flipped bits differs from the payload's by the CRC, from 0, of the flipped bits. -/
theorem crc8_pair_xor (a b x y : Byte) :
    crc8 [a ^^^ x, b ^^^ y] = crc8 [a, b] ^^^ crc8Update (crc8Update 0#8 x) y :=
  calc crc8Update (crc8Update 0xFF (a ^^^ x)) (b ^^^ y)
    _ = crc8Update (crc8Update (0xFF ^^^ 0#8) (a ^^^ x)) (b ^^^ y) := by rw [BitVec.xor_zero]
    _ = crc8 [a, b] ^^^ crc8Update (crc8Update 0#8 x) y := by rw [crc8Update_xor, crc8Update_xor]; rfl

section
variable (F : Frame) (k : Fin 3) (e : BitVec 24)

@[simp] theorem payloadHigh_corrupt : payloadHigh (corrupt F k e) k = payloadHigh F k ^^^ e.extractLsb' 16 8 := by
  simp [payloadHigh, payloadOffset, corrupt]

@[simp] theorem payloadLow_corrupt : payloadLow (corrupt F k e) k = payloadLow F k ^^^ e.extractLsb' 8 8 := by
  simp [payloadLow, corrupt]

@[simp] theorem checksumByte_corrupt : checksumByte (corrupt F k e) k = checksumByte F k ^^^ e.extractLsb' 0 8 := by
  simp [checksumByte, checksumOffset, corrupt]

end

/-- Flipping bits of one sub-field leaves the validation of the others alone. -/
theorem fieldOk_corrupt_of_ne (F : Frame) {j k : Fin 3} (e : BitVec 24) (h : j ≠ k) :
    fieldOk (corrupt F k e) j = fieldOk F j := by
  refine fieldOk_congr fun i hi => ?_
  have hne : i.val / 3 ≠ k.val := fun heq => h (Fin.ext (hi.symm.trans heq))
  have hhigh : 3 * k.val ≠ i.val := by omega
  have hlow : 3 * k.val + 1 ≠ i.val := by omega
  have hsum : 3 * k.val + 2 ≠ i.val := by omega
  simp [corrupt, hhigh, hlow, hsum]

/-- A sub-field that validates still does exactly when the syndrome of its flipped bits is 0. -/
theorem fieldOk_corrupt_iff {F : Frame} {k : Fin 3} (e : BitVec 24) (h : fieldOk F k = true) :
    fieldOk (corrupt F k e) k = true ↔ errorSyndrome e = 0#8 := by
  rw [fieldOk_iff] at h ⊢
  rw [payloadHigh_corrupt, payloadLow_corrupt, checksumByte_corrupt, crc8_pair_xor, h, BitVec.xor_right_inj,
    errorSyndrome, BitVec.xor_eq_zero_iff]

theorem firstBad_corrupt_eq_none_iff {F : Frame} (k : Fin 3) (e : BitVec 24) (h : firstBad F = none) :
    firstBad (corrupt F k e) = none ↔ errorSyndrome e = 0#8 := by
  rw [firstBad_eq_none] at h
  rw [← fieldOk_corrupt_iff e (h k), firstBad_eq_none]
  refine ⟨fun hall => hall k, fun hk j => ?_⟩
  by_cases hj : j = k
  · rw [hj, hk]
  · rw [fieldOk_corrupt_of_ne F e hj, h j]

theorem firstBad_corrupt_of_detected {F : Frame} (k : Fin 3) {e : BitVec 24} (h : firstBad F = none)
    (he : errorSyndrome e ≠ 0#8) : firstBad (corrupt F k e) = some k := by
  rw [firstBad_eq_none] at h
  refine (firstBad_eq_some_iff _ k).mpr ⟨?_, fun j hj => ?_⟩
  · rwa [← Bool.not_eq_true, fieldOk_corrupt_iff e (h k)]
  · rw [fieldOk_corrupt_of_ne F e hj.ne, h j]

/-! ### The syndrome as a sum of columns -/

/-- The syndrome of each single bit, bit 0 first: the checksum's, then the payload's. -/
def bitSyndromes : List Byte :=
  [0x01, 0x02, 0x04, 0x08, 0x10, 0x20, 0x40, 0x80, 0x31, 0x62, 0xC4, 0xB9, 0x43, 0x86, 0x3D, 0x7A,
   0xF4, 0xD9, 0x83, 0x37, 0x6E, 0xDC, 0x89, 0x23]

/-- The syndrome of bit `i`. -/
def bitSyndrome (i : Nat) : Byte := bitSyndromes.getD i 0

theorem errorSyndrome_twoPow : ∀ i < 24, errorSyndrome (BitVec.twoPow 24 i) = bitSyndrome i := by decide +kernel

theorem errorSyndrome_xor (x y : BitVec 24) : errorSyndrome (x ^^^ y) = errorSyndrome x ^^^ errorSyndrome y := by
  have hcrc : ∀ a b a' b' : Byte, crc8Update (crc8Update 0#8 (a ^^^ a')) (b ^^^ b') =
      crc8Update (crc8Update 0#8 a) b ^^^ crc8Update (crc8Update 0#8 a') b' := fun a b a' b' =>
    by rw [← crc8Update_xor, ← crc8Update_xor, BitVec.xor_zero]
  simp only [errorSyndrome, BitVec.extractLsb'_xor, hcrc]
  ac_rfl

theorem errorSyndrome_eq_columnSum (e : BitVec 24) : errorSyndrome e = columnSum bitSyndrome e 24 :=
  calc errorSyndrome e
    _ = errorSyndrome (columnSum (BitVec.twoPow 24) e 24) := by rw [columnSum_twoPow]
    _ = columnSum (fun i => errorSyndrome (BitVec.twoPow 24 i)) e 24 := map_columnSum errorSyndrome_xor _ e 24
    _ = columnSum bitSyndrome e 24 := columnSum_congr e errorSyndrome_twoPow

/-! ### How many patterns have syndrome 0 -/

/-- The error patterns of weight `w` that go undetected (`firstBad_corrupt_eq_none_iff`). -/
def undetected (w : Nat) : Set (BitVec 24) := {e | ones e = w ∧ errorSyndrome e = 0#8}

theorem ncard_undetected (w : Nat) : (undetected w).ncard = countPatterns bitSyndrome 24 w 0#8 := by
  simp only [undetected, errorSyndrome_eq_columnSum]
  exact ncard_patternsWithSum bitSyndrome 24 w 0#8

theorem ncard_undetected_of_le_three {w : Nat} (hpos : 1 ≤ w) (hle : w ≤ 3) : (undetected w).ncard = 0 := by
  rw [ncard_undetected]
  interval_cases w <;> decide +kernel

theorem ncard_undetected_four : (undetected 4).ncard = 80 := by rw [ncard_undetected]; decide +kernel

/-- One, two or three flipped bits never have syndrome 0. -/
theorem errorSyndrome_ne_zero {e : BitVec 24} (hpos : 1 ≤ ones e) (hle : ones e ≤ 3) : errorSyndrome e ≠ 0#8 := by
  intro hzero
  have hempty : undetected (ones e) = ∅ :=
    (Set.ncard_eq_zero (Set.toFinite _)).mp (ncard_undetected_of_le_three hpos hle)
  have hmem : e ∈ undetected (ones e) := ⟨rfl, hzero⟩
  rw [hempty] at hmem
  exact hmem

/-- A pattern that passes in every valid frame has syndrome 0: there is a valid frame to try it on. -/
theorem passes_everyValidFrame_iff (e : BitVec 24) :
    (∀ (F : Frame) (k : Fin 3), firstBad F = none → firstBad (corrupt F k e) = none) ↔ errorSyndrome e = 0#8 :=
  ⟨fun h => (firstBad_corrupt_eq_none_iff 0 e (firstBad_buildFrame 0 0 0)).mp (h _ _ (firstBad_buildFrame 0 0 0)),
    fun h _ k hF => (firstBad_corrupt_eq_none_iff k e hF).mpr h⟩

/-- Settles O32: whether flipped bits pass is whether their syndrome is 0 (`firstBad_corrupt_eq_none_iff`), and how
many patterns of a weight have syndrome 0 is counted bit by bit (`ncard_patternsWithSum`). -/
theorem corruptionIsDetected : Obligations.CorruptionIsDetected := by
  refine ⟨fun F k e hF hpos hle => ?_, fun F G j k e hF hG => ?_,
    ⟨by decide, (passes_everyValidFrame_iff _).mpr (by decide +kernel)⟩, ?_⟩
  · have hbad := firstBad_corrupt_of_detected k hF (errorSyndrome_ne_zero hpos hle)
    exact ⟨parseFrame_of_bad hbad, hbad, fun j hj => fieldOk_corrupt_of_ne F e hj⟩
  · rw [firstBad_corrupt_eq_none_iff j e hF, firstBad_corrupt_eq_none_iff k e hG]
  · simp only [passes_everyValidFrame_iff]
    exact ncard_undetected_four

end Sys2Proof.Machine
end

section
/-! SUPPORT. The session operations by the transport's replies: one equation for each branch of `sesStart_cases`
and `sesRead_cases` (42_session.md R162, R163, R167, R169). -/

namespace Sys2Proof.Machine

variable {s t : State}

theorem exec_sesStart_of_eq (h : sesStart s = t) : exec .sesStart s = .next t := congrArg _ h

theorem exec_sesRead_of_eq (h : sesRead s = t) : exec .sesRead s = .next t := congrArg _ h

/-! ### `SES.START` -/

theorem sesStart_of_taken (ht : s.txReply = .returns true) :
    sesStart s = State.respond .success 0 { s.spendTx.record (startEvent true) with meas := .measuring } := by
  simp [sesStart, sendStart_of_returns ht]

theorem sesStart_of_failed (ht : s.txReply = .returns false) :
    sesStart s = (s.spendTx.record (startEvent false)).raise .transmitFailure := by
  simp [sesStart, sendStart_of_returns ht]

theorem sesStart_of_txNever (ht : s.txReply = .never) :
    sesStart s = s.spendTx.waitFor (.tx 0x62 [0x21, 0xB1]) := by
  rw [sesStart, sendCommand_of_never ht, commandBytes_cmdStart]; rfl

/-! ### `SES.READ` up to the request -/

theorem sesRead_of_idle (hm : s.meas = .idle) : sesRead s = s.refuse .pviol := by
  simp [sesRead, hm]

theorem sesRead_of_failed (hm : s.meas = .measuring) (ht : s.txReply = .returns false) :
    sesRead s = (s.spendTx.record (readEvent false)).raise .transmitFailure := by
  simp [sesRead, hm, sendRead_of_returns ht]

theorem sesRead_of_txNever (hm : s.meas = .measuring) (ht : s.txReply = .never) :
    sesRead s = s.spendTx.waitFor (.tx 0x62 [0xEC, 0x05]) := by
  simp only [sesRead, hm, sendCommand_of_never ht, commandBytes_cmdRead]; rfl

theorem sesRead_of_taken (hm : s.meas = .measuring) (ht : s.txReply = .returns true) :
    sesRead s = fetchFrame (s.spendTx.record (readEvent true)) := by
  simp [sesRead, hm, sendRead_of_returns ht]

theorem sesRead_of_reqNever (hm : s.meas = .measuring) (ht : s.txReply = .returns true)
    (hr : s.spendTx.reqReply = .never) :
    sesRead s = (s.spendTx.spendReq.record (readEvent true)).waitFor (.req 0x62 9) := by
  have hreq := req_of_never (s := s.spendTx.record (readEvent true)) hr periphAddr frameLen
  simp only [sesRead_of_taken hm ht, fetchFrame, hreq]; rfl

theorem sesRead_of_wrongLength {n : Nat} (hm : s.meas = .measuring) (ht : s.txReply = .returns true)
    (hr : s.spendTx.reqReply = .returns n) (hn : n ≠ 9) :
    sesRead s =
      ((s.spendTx.spendReq.record (readEvent true)).record (.req 0x62 9 n)).raise .frameLengthError := by
  have hreq := req_of_returns (s := s.spendTx.record (readEvent true)) hr periphAddr frameLen
  have hlen : lenOk n = false := by simpa [lenOk, frameLen] using hn
  simp only [sesRead_of_taken hm ht, fetchFrame, hreq, hlen]; rfl

/-! ### `SES.READ` from a request answered with 9 -/

@[simp] theorem State.afterFrame_trace (s : State) (F : Frame) :
    (s.afterFrame F).trace = s.trace ++ frameEvents F := rfl
@[simp] theorem State.afterFrame_responses (s : State) (F : Frame) : (s.afterFrame F).responses = s.responses := by
  simp [State.afterFrame]
@[simp] theorem State.afterFrame_pending (s : State) (F : Frame) : (s.afterFrame F).pending = s.pending := by
  simp [State.afterFrame]
@[simp] theorem State.afterFrame_reading (s : State) (F : Frame) : (s.afterFrame F).reading = s.reading := by
  simp [State.afterFrame]

/-- The state after a request answered with 9, before any byte is taken. -/
def State.requested (s : State) : State :=
  (s.spendTx.spendReq.record (readEvent true)).record (.req 0x62 9 9)

/-- Taking bytes after the request spends what the environment has left then, and adds nothing to the trace of
itself. -/
theorem State.spendRxs_requested (k : Nat) (s : State) : State.spendRxs k s.requested =
    ((State.spendRxs k s.spendTx.spendReq).record (readEvent true)).record (.req 0x62 9 9) := by
  simp [requested, spendRxs_record]

theorem sesRead_of_requested (hm : s.meas = .measuring) (ht : s.txReply = .returns true)
    (hr : s.spendTx.reqReply = .returns 9) :
    (∀ F u, drain 9 s.requested = .returned F u → sesRead s = deliver F u) ∧
    (∀ u, drain 9 s.requested = .hung u → sesRead s = u) := by
  have hreq : req periphAddr frameLen (s.spendTx.record (readEvent true)) = .returned 9 s.requested :=
    req_of_returns (s := s.spendTx.record (readEvent true)) hr periphAddr frameLen
  have hlen : lenOk 9 = true := rfl
  constructor
  · intro F u hdrain
    simp [sesRead_of_taken hm ht, fetchFrame, hreq, hlen, hdrain]
  · intro u hdrain
    simp [sesRead_of_taken hm ht, fetchFrame, hreq, hlen, hdrain]

theorem sesRead_of_delivers {F : Frame} (hm : s.meas = .measuring) (ht : s.txReply = .returns true)
    (hr : s.spendTx.reqReply = .returns 9) (hF : s.spendTx.spendReq.delivers F) :
    sesRead s = deliver F (s.afterFrame F) := by
  have hdelivers : s.requested.delivers F := fun i => by simpa [State.spendRxs_requested] using hF i
  rw [(sesRead_of_requested hm ht hr).1 F _ (drain_of_delivers hdelivers), State.spendRxs_requested]
  simp [State.afterFrame, State.received, State.record, State.spendRead, frameEvents]

theorem sesRead_of_silence {bytes : List Byte} (hm : s.meas = .measuring) (ht : s.txReply = .returns true)
    (hr : s.spendTx.reqReply = .returns 9) (hlen : bytes.length < 9)
    (hbytes : ∀ i (h : i < bytes.length), (State.spendRxs i s.spendTx.spendReq).rxReply = .returns bytes[i])
    (hnever : (State.spendRxs bytes.length s.spendTx.spendReq).rxReply = .never) :
    sesRead s = { State.spendRxs (bytes.length + 1) s.spendTx.spendReq with
      trace := s.trace ++ readEvent true :: .req 0x62 9 9 :: bytes.map .rx, pending := some .rx } := by
  have hdrain := drain_of_silence (s := s.requested) hlen
    (fun i h => by simpa [State.spendRxs_requested] using hbytes i h)
    (by simpa [State.spendRxs_requested] using hnever)
  rw [(sesRead_of_requested hm ht hr).2 _ hdrain, State.spendRxs_requested]
  simp [State.received, State.record, State.waitFor]

end Sys2Proof.Machine
end

section
/-! The session operations by the transport's answers (42_session.md R162, R163, R167 to R169). -/

namespace Sys2Proof.Machine

/-- Settles O34: `sesStart_of_taken` and `sesStart_of_failed`. -/
theorem sesStartByAnswer : Obligations.SesStartByAnswer :=
  ⟨decode_encode (i := .sesStart) rfl, fun _ ht => exec_sesStart_of_eq (sesStart_of_taken ht),
    fun _ ht => exec_sesStart_of_eq (sesStart_of_failed ht)⟩

/-- Settles O35: in Idle a read is the refusal with `PVIOL`, whose response has free `st` and `data`. -/
theorem sesReadInIdleIsRefused : Obligations.SesReadInIdleIsRefused := fun s hm =>
  ⟨⟨false, Config.refusedSt s.draws, Config.refusedData s.draws⟩, s.draws + 1, rfl,
    exec_sesRead_of_eq (sesRead_of_idle hm)⟩

/-- Settles O39: the nine bytes are taken (`sesRead_of_delivers`), their checksums all match, and the reading
delivered is their conversion, whose values are `raw16_toNat`, `tempQ16_toInt` and `humiQ16_toNat`. -/
theorem goodFrameIsDelivered : Obligations.GoodFrameIsDelivered := by
  intro s F hm ht hr hF h₀ h₁ h₂
  have hgood : firstBad F = none := (firstBad_eq_none F).mpr fun k => (fieldOk_iff F k).mpr
    (match k with | 0 => h₀ | 1 => h₁ | 2 => h₂)
  refine ⟨convertFrame F, raw16_toNat F 0, ?_, ?_, exec_sesRead_of_eq ?_⟩
  · change (tempQ16 (raw16 F 1)).toInt = _
    rw [tempQ16_toInt, raw16_toNat]
    push_cast
    rfl
  · exact (humiQ16_toNat _).trans (congrArg _ (raw16_toNat F 2))
  · rw [sesRead_of_delivers hm ht hr hF, deliver_of_good hgood]
    simp [State.respond, State.afterFrame, Status.code]

/-- An instruction left waiting in a transport call has written no register and given no response (R169). -/
theorem Effect.frame_of_waiting {i : Instr} {s t : State} (h : Effect i s t) (hs : s.pending = none)
    (ht : t.pending ≠ none) :
    t.crc = s.crc ∧ t.meas = s.meas ∧ t.reading = s.reading ∧ t.illop = s.illop ∧ t.pviol = s.pviol ∧
      t.noval = s.noval ∧ t.responses = s.responses := by
  cases h with
  | waitsInTx | waitsInReq | waitsInRx => simp
  | _ => simp [hs] at ht

/-- Settles O41: one equation for each call that can stay unreturned, and `Effect.frame_of_waiting`. -/
theorem unreturnedCallGivesNoResponse : Obligations.UnreturnedCallGivesNoResponse :=
  ⟨fun _ ht =>
      ⟨exec_sesStart_of_eq (sesStart_of_txNever ht), fun hm => exec_sesRead_of_eq (sesRead_of_txNever hm ht)⟩,
    fun _ hm ht hr => exec_sesRead_of_eq (sesRead_of_reqNever hm ht hr),
    fun _ _ hm ht hr hlen hbytes hnever =>
      exec_sesRead_of_eq (sesRead_of_silence hm ht hr hlen hbytes hnever),
    fun _ _ _ hs h ht => (exec_effect h).frame_of_waiting hs ht⟩

end Sys2Proof.Machine
end

section
/-! What a read does depends on the transport's answers alone (42_session.md R171): between states with the same
environment, each branch of `sesRead_cases` in the one is the same branch in the other. -/

namespace Sys2Proof.Machine

/-- The transports of the two states are about to give the same replies. -/
structure SameAnswers (s u : State) : Prop where
  txScript : s.txScript = u.txScript
  reqScript : s.reqScript = u.reqScript
  rxScript : s.rxScript = u.rxScript
  draws : s.draws = u.draws

namespace SameAnswers

variable {s u : State}

theorem txReply (h : SameAnswers s u) : s.txReply = u.txReply := by
  simp [State.txReply, h.txScript, h.draws]

theorem reqReply (h : SameAnswers s u) : s.reqReply = u.reqReply := by
  simp [State.reqReply, h.reqScript, h.draws]

theorem rxReply (h : SameAnswers s u) : s.rxReply = u.rxReply := by
  simp [State.rxReply, h.rxScript, h.draws]

theorem spendTx (h : SameAnswers s u) : SameAnswers s.spendTx u.spendTx :=
  ⟨by simp [h.txScript], h.reqScript, h.rxScript, by simp [h.txScript, h.draws]⟩

theorem spendReq (h : SameAnswers s u) : SameAnswers s.spendReq u.spendReq :=
  ⟨h.txScript, by simp [h.reqScript], h.rxScript, by simp [h.reqScript, h.draws]⟩

theorem spendRx (h : SameAnswers s u) : SameAnswers s.spendRx u.spendRx :=
  ⟨h.txScript, h.reqScript, by simp [h.rxScript], by simp [h.rxScript, h.draws]⟩

theorem spendRxs (h : SameAnswers s u) : ∀ k, SameAnswers (State.spendRxs k s) (State.spendRxs k u)
  | 0 => h
  | k + 1 => (h.spendRxs k).spendRx

end SameAnswers

/-- Settles O40: the branch `s` takes is the branch `u` takes, and it names the events, the response and the
frame. -/
theorem readDependsOnAnswersAlone : Obligations.ReadDependsOnAnswersAlone := by
  intro s u t v hm hm' htx hreq hrx hdraws hs hu h h'
  have hsame : SameAnswers s u := ⟨htx, hreq, hrx, hdraws⟩
  have htxReply : u.txReply = s.txReply := hsame.txReply.symm
  have hreqReply : u.spendTx.reqReply = s.spendTx.reqReply := hsame.spendTx.reqReply.symm
  have hrxReply := fun k => (hsame.spendTx.spendReq.spendRxs k).rxReply.symm
  obtain rfl : sesRead s = t := Host.Outcome.next.inj h
  obtain rfl : sesRead u = v := Host.Outcome.next.inj h'
  rcases sesRead_cases s with ⟨hidle, -⟩ | ⟨-, ⟨ht, e⟩ | ⟨ht, e⟩ | ⟨ht, hr, e⟩ | ⟨ht, n, hn, hr, e⟩ |
      ⟨ht, hr, _, hlen, bytes, rfl, hbytes, hnever, e⟩ | ⟨ht, hr, F, hF, e⟩⟩
  · exact absurd (hidle.symm.trans hm) (by simp)
  · rw [e, sesRead_of_failed hm' (htxReply.trans ht)]
    exact ⟨by simp [hs, hu], [readEvent false], [⟨true, 1, 0⟩], by simp [Failure.status, Status.code]⟩
  · rw [e, sesRead_of_txNever hm' (htxReply.trans ht)]
    exact ⟨rfl, [], [], by simp⟩
  · rw [e, sesRead_of_reqNever hm' (htxReply.trans ht) (hreqReply.trans hr)]
    exact ⟨rfl, [readEvent true], [], by simp⟩
  · rw [e, sesRead_of_wrongLength hm' (htxReply.trans ht) (hreqReply.trans hr) hn]
    exact ⟨by simp [hs, hu], [readEvent true, .req 0x62 9 n], [⟨true, 2, 0⟩],
      by simp [Failure.status, Status.code]⟩
  · rw [e, sesRead_of_silence hm' (htxReply.trans ht) (hreqReply.trans hr) hlen
      (fun i hi => (hrxReply i).trans (hbytes i hi)) ((hrxReply _).trans hnever)]
    exact ⟨rfl, readEvent true :: .req 0x62 9 9 :: bytes.map .rx, [], by simp⟩
  · rw [e, sesRead_of_delivers hm' (htxReply.trans ht) (hreqReply.trans hr) fun i => (hrxReply i).trans (hF i)]
    by_cases hgood : firstBad F = none
    · rw [deliver_of_good hgood, deliver_of_good hgood]
      exact ⟨by simp [hs, hu], frameEvents F, [⟨true, 0, 0⟩], by simp [Status.code]⟩
    · rw [deliver_of_bad hgood, deliver_of_bad hgood]
      exact ⟨by simp [hs, hu], frameEvents F, [⟨true, 3, 0⟩], by simp [Failure.status, Status.code]⟩

end Sys2Proof.Machine
end

section
/-! The transport trace of an operation by its outcome, and the session's transition table (42_session.md R161,
R164, R170). -/

namespace Sys2Proof.Machine

/-- R170's rows of `SES.READ`, in session state `m`: the events a read that ended appended, with its response. -/
def ReadRow (m : Session) (events : List TransportEvent) (r : Response) : Prop :=
  (r.acc = false ∧ m = .idle ∧ events = []) ∨
  (r = ⟨true, 1, 0⟩ ∧ events = [readEvent false]) ∨
  (∃ n, n ≠ 9 ∧ r = ⟨true, 2, 0⟩ ∧ events = [readEvent true, .req 0x62 9 n]) ∨
  (∃ F, firstBad F ≠ none ∧ r = ⟨true, 3, 0⟩ ∧ events = frameEvents F) ∨
  (∃ F, firstBad F = none ∧ r = ⟨true, 0, 0⟩ ∧ events = frameEvents F)

/-- R170's rows for instruction `i`. -/
def TraceRow (i : Instr) (m : Session) (events : List TransportEvent) (r : Response) : Prop :=
  (i = .sesStart →
    (r = ⟨true, 0, 0⟩ ∧ events = [startEvent true]) ∨ (r = ⟨true, 1, 0⟩ ∧ events = [startEvent false])) ∧
  (i = .sesRead → ReadRow m events r) ∧ (i ≠ .sesStart → i ≠ .sesRead → events = [])

theorem TraceRow.of_read {i : Instr} {m : Session} {events : List TransportEvent} {r : Response}
    (hi : i = .sesRead) (h : ReadRow m events r) : TraceRow i m events r :=
  ⟨by simp [hi], fun _ => h, fun _ => absurd hi⟩

theorem TraceRow.of_noCall {i : Instr} {m : Session} (r : Response) (hstart : i ≠ .sesStart)
    (hread : i ≠ .sesRead) : TraceRow i m [] r :=
  ⟨(absurd · hstart), (absurd · hread), fun _ _ => rfl⟩

/-- An instruction that ended appended one row of the trace table. -/
theorem Effect.traceRow {i : Instr} {s t : State} (h : Effect i s t) (hstart : i ≠ .busStartPeriodic)
    (hread : i ≠ .busReadMeasurement) (hended : t.pending = none) :
    ∃ events r, t.trace = s.trace ++ events ∧ t.responses = s.responses ++ [r] ∧
      TraceRow i s.meas events r := by
  cases h with
  | waitsInTx | waitsInReq | waitsInRx => cases hended
  | sentAlone e hi => exact absurd hi (not_or.mpr ⟨hstart, hread⟩)
  | crcInit hi | crcByte _ hi => exact ⟨[], _, by simp, rfl, .of_noCall _ (by simp [hi]) (by simp [hi])⟩
  | reads d _ _ hne hne' => exact ⟨[], _, by simp, rfl, .of_noCall _ hne hne'⟩
  | refusedRd r f hi =>
    exact ⟨[], _, by simp, State.refuse_responses .., .of_noCall _ (by simp [hi]) (by simp [hi])⟩
  | started hi | startFailed hi => exact ⟨_, _, rfl, rfl, by simp [TraceRow, hi]⟩
  | refusedRead hi hm =>
    exact ⟨[], _, by simp, State.refuse_responses .., .of_read hi (.inl ⟨rfl, hm, rfl⟩)⟩
  | readFailed hi => exact ⟨_, _, rfl, rfl, .of_read hi (.inr (.inl ⟨rfl, rfl⟩))⟩
  | wrongLength n hi _ _ hn => exact ⟨_, _, rfl, rfl, .of_read hi (.inr (.inr (.inl ⟨n, hn, rfl, rfl⟩)))⟩
  | badFrame F hi _ _ hF =>
    exact ⟨_, _, rfl, rfl, .of_read hi (.inr (.inr (.inr (.inl ⟨F, hF, rfl, rfl⟩))))⟩
  | goodFrame F hi _ _ hF =>
    exact ⟨_, _, rfl, rfl, .of_read hi (.inr (.inr (.inr (.inr ⟨F, hF, rfl, rfl⟩))))⟩

/-- Settles O42: `Effect.traceRow`. -/
theorem tracesByOutcome : Obligations.TracesByOutcome := fun _ _ _ hstart hread h hended =>
  (exec_effect h).traceRow hstart hread hended

/-- Settles O43: the most calls an `Effect` makes are those of a read: one `TX`, one `REQ`, and then as many `RX` as
its frame has bytes, or fewer than nine and the one it waits in. -/
theorem noOperationRetries : Obligations.NoOperationRetries := by
  intro i s t hs h
  cases exec_effect h with
  | crcInit | crcByte | reads | refusedRd | refusedRead => exact ⟨[], by simp, by simp [hs]⟩
  | started | startFailed | readFailed | wrongLength =>
    exact ⟨_, rfl, by simp [startEvent, readEvent, hs]⟩
  | badFrame F | goodFrame F =>
    exact ⟨_, rfl, by simp [frameEvents, readEvent, List.filter_map, Function.comp_def, hs]⟩
  | waitsInTx => exact ⟨[], by simp, by simp⟩
  | waitsInReq => exact ⟨_, rfl, by simp [readEvent]⟩
  | waitsInRx bytes _ _ _ hlen =>
    exact ⟨_, rfl, by simp [readEvent, List.filter_map, Function.comp_def]; omega⟩
  | sentAlone e _ he =>
    obtain ⟨ok, -, rfl | rfl⟩ := he <;> exact ⟨_, rfl, by simp [startEvent, readEvent, hs]⟩

/-- `SES.START` enters Measuring exactly when the transport took its command (R162). -/
theorem sesStart_meas (s : State) :
    (s.txReply = .returns true → (sesStart s).meas = .measuring) ∧
    (s.txReply ≠ .returns true → (sesStart s).meas = s.meas) := by
  rcases sesStart_cases s with ⟨ht, e⟩ | ⟨ht, e⟩ | ⟨ht, e⟩ <;> simp [ht, e]

/-- Settles O49: the word `0x200000` runs `SES.START` (`sesStart_meas`), no other instruction writes the session
state (`Effect.meas_cases`), and reset leaves Idle. -/
theorem sessionFollowsTheTransitionTable : Obligations.SessionFollowsTheTransitionTable := by
  intro s t h
  refine ⟨fun rest hi => ?_, fun rest hi => ?_, fun hreset hstart => ?_⟩
  · cases (step_of_reset hi).symm.trans h
    rfl
  · cases exec_of_step_encoded (i := .sesStart) rfl hi h
    exact sesStart_meas { s with inputs := rest }
  · rcases step_cases h with ⟨-, rfl⟩ | ⟨rest, hi, -⟩ | ⟨p, rest, i, hi, -, hd, hexec⟩ | ⟨w, rest, -, -, -, rfl⟩
    · rfl
    · exact absurd hi (hreset rest)
    · obtain heq | ⟨rfl, -⟩ := (exec_effect hexec).meas_cases
      · exact heq
      · obtain rfl := encode_of_decode hd
        exact absurd hi (hstart rest)
    · exact State.refuse_meas ..

end Sys2Proof.Machine
end

section
/-! The register read of the reading registers, with a reading and without one (43_register_read.md R190 to R192;
60_exceptions.md R206). -/

namespace Sys2Proof.Machine

/-- `VALID = 0` is the absence of a reading (R26). -/
theorem State.valid_eq_false_iff {s : State} : s.valid = false ↔ s.reading = none := by
  simp [State.valid]

/-- A register number that names a reading register is refused while there is no reading (R192). -/
theorem exec_rd_of_no_reading {s : State} {r : Byte} (h : s.reading = none) (hr : r ∈ ([1, 2, 3] : List Byte)) :
    exec (.rd r) s = .next (s.refuse .noval) := by
  simp only [List.mem_cons, List.not_mem_nil, or_false] at hr
  rcases hr with rfl | rfl | rfl <;> simp [exec, execRd, readRegister, readReading, h]

/-- Settles O45: the words 0 to 3 of opcode `0x30` are those of well-formed `RD`s (`decode_encode`), and the three
reads are `exec_rd_co2Ppm` and the two after it. -/
theorem readingRegistersAreReturned : Obligations.ReadingRegistersAreReturned :=
  ⟨fun r hr => decode_encode (i := .rd r) (decide_eq_true hr),
    fun _ _ h => ⟨exec_rd_co2Ppm h, exec_rd_tempQ16 h, exec_rd_humiQ16 h⟩⟩

/-- Settles O46: without a reading the read is the refusal with `NOVAL` (`exec_rd_of_no_reading`), whose response
has free `st` and `data`. -/
theorem missingReadingIsRefused : Obligations.MissingReadingIsRefused := fun s _ hvalid hn =>
  ⟨⟨false, Config.refusedSt s.draws, Config.refusedData s.draws⟩, s.draws + 1, rfl,
    exec_rd_of_no_reading (State.valid_eq_false_iff.mp hvalid) hn⟩

end Sys2Proof.Machine
end

section
/-! Failures and refusals (60_exceptions.md R201 to R203, R209 to R211): what reports each failure, what a failure and
a refusal leave unchanged, and that neither stops the block. -/

namespace Sys2Proof.Machine

section
variable {i : Instr} {s t : State} {r : Response}

/-- Whatever reports a failure wrote no register, and each failure has one source: a transmit the transport could not
make, a request answered with another count than 9, or a frame that does not validate (R201 to R203, R209). -/
theorem Effect.failure_cases (h : Effect i s t) (hr : t.responses = s.responses ++ [r]) (hacc : r.acc = true)
    (hst : r.st ≠ 0) :
    (t.crc = s.crc ∧ t.meas = s.meas ∧ t.reading = s.reading ∧ t.illop = s.illop ∧ t.pviol = s.pviol ∧
      t.noval = s.noval) ∧
    ((r = ⟨true, 1, 0⟩ ∧ (i = .sesStart ∨ i = .sesRead) ∧ s.txReply = .returns false) ∨
     (r = ⟨true, 2, 0⟩ ∧ i = .sesRead ∧ ∃ n, n ≠ 9 ∧ t.trace = s.trace ++ [readEvent true, .req 0x62 9 n]) ∨
     (r = ⟨true, 3, 0⟩ ∧ i = .sesRead ∧ ∃ F, firstBad F ≠ none ∧ t.trace = s.trace ++ frameEvents F)) := by
  cases h with
  | waitsInTx | waitsInReq | waitsInRx | sentAlone => simp at hr
  | refusedRd | refusedRead =>
    obtain rfl : _ = r := by simpa using hr
    cases hacc
  | crcInit | crcByte | reads | started | goodFrame =>
    obtain rfl : _ = r := by simpa using hr
    exact absurd rfl hst
  | startFailed hi ht =>
    obtain rfl : _ = r := by simpa using hr
    exact ⟨by simp, .inl ⟨rfl, .inl hi, ht⟩⟩
  | readFailed hi _ ht =>
    obtain rfl : _ = r := by simpa using hr
    exact ⟨by simp, .inl ⟨rfl, .inr hi, ht⟩⟩
  | wrongLength n hi _ _ hn =>
    obtain rfl : _ = r := by simpa using hr
    exact ⟨by simp, .inr (.inl ⟨rfl, hi, n, hn, rfl⟩)⟩
  | badFrame F hi _ _ hF =>
    obtain rfl : _ = r := by simpa using hr
    exact ⟨by simp, .inr (.inr ⟨rfl, hi, F, hF, rfl⟩)⟩

/-- A refused response comes from a refusal and nothing else (R209). -/
theorem Effect.eq_refuse (h : Effect i s t) (hr : t.responses = s.responses ++ [r]) (hacc : r.acc = false) :
    ∃ f, t = s.refuse f := by
  cases h with
  | refusedRd _ f => exact ⟨f, rfl⟩
  | refusedRead => exact ⟨.pviol, rfl⟩
  | waitsInTx | waitsInReq | waitsInRx | sentAlone => simp at hr
  | _ =>
    obtain rfl : _ = r := by simpa using hr
    cases hacc

end

/-- Settles O53: `Effect.failure_cases` for a failure, `Effect.eq_refuse` for a refusal. -/
theorem failuresAndRefusalsArePrecise : Obligations.FailuresAndRefusalsArePrecise := by
  intro i s t r hexec hr
  refine ⟨fun hacc hst => ?_, fun hacc => ?_⟩
  · obtain ⟨⟨hcrc, hmeas, hreading, hillop, hpviol, hnoval⟩, hsource⟩ :=
      (exec_effect hexec).failure_cases hr hacc hst
    have hdata : r.data = 0 := by rcases hsource with ⟨rfl, -⟩ | ⟨rfl, -⟩ | ⟨rfl, -⟩ <;> rfl
    exact ⟨hcrc, hmeas, hreading, hillop, hpviol, hnoval, hdata⟩
  · obtain ⟨f, rfl⟩ := (exec_effect hexec).eq_refuse hr hacc
    exact ⟨f, s.draws + 1, by rw [← hr]; rfl⟩

/-- Settles O36: `sesStart_of_failed` and `sesRead_of_failed`; no other failure of `Effect.failure_cases` has
`st = 1`. -/
theorem transmitFailureEndsTheOperation : Obligations.TransmitFailureEndsTheOperation := by
  refine ⟨fun _ ht => exec_sesStart_of_eq (sesStart_of_failed ht),
    fun _ hm ht => exec_sesRead_of_eq (sesRead_of_failed hm ht), fun i s t d hexec hr => ?_⟩
  obtain ⟨-, ⟨-, hsource⟩ | ⟨hst, -⟩ | ⟨hst, -⟩⟩ := (exec_effect hexec).failure_cases hr rfl (by simp)
  · exact hsource
  · simp at hst
  · simp at hst

/-- Settles O37: `sesRead_of_wrongLength`; no other failure of `Effect.failure_cases` has `st = 2`. -/
theorem wrongLengthEndsTheRead : Obligations.WrongLengthEndsTheRead := by
  refine ⟨fun s n hm ht hreq hn => exec_sesRead_of_eq ?_, fun i s t d hexec hr => ?_⟩
  · rw [sesRead_of_wrongLength hm ht hreq hn]
    simp [State.raise, State.respond, State.record, Failure.status, Status.code]
  · obtain ⟨-, ⟨hst, -⟩ | ⟨-, hsource⟩ | ⟨hst, -⟩⟩ := (exec_effect hexec).failure_cases hr rfl (by simp)
    · simp at hst
    · exact hsource
    · simp at hst

/-- Settles O38: the nine bytes are taken (`sesRead_of_delivers`) and not delivered (`deliver_of_bad`); no other
failure of `Effect.failure_cases` has `st = 3`. -/
theorem wrongChecksumEndsTheRead : Obligations.WrongChecksumEndsTheRead := by
  refine ⟨fun s F hm ht hreq hF hbad => exec_sesRead_of_eq ?_, fun i s t d hexec hr => ?_⟩
  · rw [sesRead_of_delivers hm ht hreq hF, deliver_of_bad hbad]
    simp [State.raise, State.respond, State.afterFrame, Failure.status, Status.code]
  · obtain ⟨-, ⟨hst, -⟩ | ⟨hst, -⟩ | ⟨-, hsource⟩⟩ := (exec_effect hexec).failure_cases hr rfl (by simp)
    · simp at hst
    · simp at hst
    · exact hsource

/-- The model gives every instruction a meaning in every state (R211). -/
theorem exec_total (i : Instr) (s : State) : ∃ t, exec i s = .next t := by
  cases i <;> exact ⟨_, rfl⟩

/-- Settles O55: a legal word runs its instruction (`exec_total`), which takes no further input of the host
(`Effect.inputs_eq`); an illegal word is refused (`runWord_of_illegal`). -/
theorem noFailureStopsTheBlock : Obligations.NoFailureStopsTheBlock := by
  refine ⟨exec_total, fun s w rest hinputs hpending => ?_⟩
  rw [step_of_issue hinputs hpending]
  cases hd : decode (.operation w) with
  | some i =>
    obtain ⟨t, hexec⟩ := exec_total i { s with inputs := rest }
    exact ⟨t, (runWord_of_decode hd _).trans hexec, (exec_effect hexec).inputs_eq⟩
  | none => exact ⟨_, runWord_of_illegal hd _, State.refuse_inputs ..⟩

end Sys2Proof.Machine
end

section
/-! Quiescence, reset and the two stops of a step (70_reset_and_hazards.md R230, R231, R234, R240). -/

namespace Sys2Proof.Machine

/-- Settles O7: with nothing to take the step answers the state itself (`step_of_nil`). -/
theorem quietBlockChangesNothing : Obligations.QuietBlockChangesNothing :=
  fun _ => step_of_nil

/-! ### The stops of a step -/

/-- The block sends no bus command but the two of R87. -/
theorem decode_busCommand_eq_none_iff (c : Half) : decode (.busCommand c) = none ↔ c ≠ 0x21B1 ∧ c ≠ 0xEC05 := by
  simp only [decode, decodeBusCommand]
  split_ifs with hstart hread
  · simp [hstart]
  · simp [hread]
  · exact iff_of_true rfl ⟨hstart, hread⟩

theorem runWord_of_unknownBusCommand {c : Half} (h : decode (.busCommand c) = none) (s : State) :
    runWord (.busCommand c) s = .refused (.unknownBusCommand c) := by simp [runWord, h, rejectWord]

/-- Running a word answers a next state, unless the word is a bus command that does not decode. -/
theorem runWord_cases (p : PortWord) (s : State) :
    (∃ t, runWord p s = .next t) ∨ ∃ c, p = .busCommand c ∧ decode p = none := by
  cases hd : decode p with
  | some i =>
    obtain ⟨t, hexec⟩ := exec_total i s
    exact .inl ⟨t, (runWord_of_decode hd s).trans hexec⟩
  | none =>
    cases p with
    | operation w => exact .inl ⟨_, runWord_of_illegal hd s⟩
    | busCommand c => exact .inr ⟨c, rfl, rfl⟩

/-- A word came while a transport call has not returned (R234). -/
def State.HasEarlyWord (s : State) : Prop :=
  (∃ c, s.pending = some c) ∧ ∃ p rest, s.inputs = .issue p :: rest

/-- With no call in progress the host presents, by itself, a bus command that does not decode. -/
def State.HasUnknownBusCommand (s : State) (c : Half) : Prop :=
  s.pending = none ∧ (∃ rest, s.inputs = .issue (.busCommand c) :: rest) ∧ decode (.busCommand c) = none

theorem State.HasEarlyWord.step_eq {s : State} (h : s.HasEarlyWord) : step s = .fault .wordBeforeResponse := by
  obtain ⟨⟨c, hpending⟩, p, rest, hinputs⟩ := h
  exact step_of_early hinputs hpending

theorem State.HasUnknownBusCommand.step_eq {s : State} {c : Half} (h : s.HasUnknownBusCommand c) :
    step s = .refused (.unknownBusCommand c) := by
  obtain ⟨hpending, ⟨rest, hinputs⟩, hunknown⟩ := h
  exact (step_of_issue hinputs hpending).trans (runWord_of_unknownBusCommand hunknown _)

/-- A step answers a next state unless one of the two stops applies. -/
theorem step_next_or_stops (s : State) :
    (∃ t, step s = .next t) ∨ s.HasEarlyWord ∨ ∃ c, s.HasUnknownBusCommand c := by
  cases hinputs : s.inputs with
  | nil => exact .inl ⟨s, step_of_nil hinputs⟩
  | cons input rest =>
    cases input with
    | reset => exact .inl ⟨_, step_of_reset hinputs⟩
    | issue p =>
      cases hpending : s.pending with
      | some c => exact .inr (.inl ⟨⟨c, hpending⟩, p, rest, hinputs⟩)
      | none =>
        obtain ⟨t, hrun⟩ | ⟨c, rfl, hunknown⟩ := runWord_cases p { s with inputs := rest }
        · exact .inl ⟨t, (step_of_issue hinputs hpending).trans hrun⟩
        · exact .inr (.inr ⟨c, hpending, ⟨rest, hinputs⟩, hunknown⟩)

/-- Settles O8: a step that answers no next state meets one of the two stops (`step_next_or_stops`), and each stop
has its own answer. -/
theorem onlyAnEarlyWordFaults : Obligations.OnlyAnEarlyWordFaults := by
  refine ⟨fun s f => ⟨fun h => ?_, ?_⟩, fun s r => ⟨fun h => ?_, ?_⟩⟩
  · obtain ⟨t, ht⟩ | hearly | ⟨c, hunknown⟩ := step_next_or_stops s
    · cases ht.symm.trans h
    · cases hearly.step_eq.symm.trans h
      exact ⟨rfl, hearly⟩
    · cases hunknown.step_eq.symm.trans h
  · rintro ⟨rfl, hearly⟩
    exact State.HasEarlyWord.step_eq hearly
  · obtain ⟨t, ht⟩ | hearly | ⟨c, hunknown⟩ := step_next_or_stops s
    · cases ht.symm.trans h
    · cases hearly.step_eq.symm.trans h
    · cases hunknown.step_eq.symm.trans h
      obtain ⟨hpending, ⟨rest, hinputs⟩, hdecode⟩ := hunknown
      exact ⟨c, rest, rfl, hpending, hinputs, (decode_busCommand_eq_none_iff c).mp hdecode⟩
  · rintro ⟨c, rest, rfl, hpending, hinputs, hcode⟩
    exact State.HasUnknownBusCommand.step_eq
      ⟨hpending, ⟨rest, hinputs⟩, (decode_busCommand_eq_none_iff c).mpr hcode⟩

/-! ### Reset -/

/-- No instruction takes the reading away: one that writes the registers writes a reading (R25). -/
theorem Effect.valid_stays {i : Instr} {s t : State} (h : Effect i s t) (hs : s.valid = true) : t.valid = true := by
  obtain heq | ⟨-, -, F, -, hnew, -⟩ := h.reading_cases
  · rwa [State.valid, heq]
  · simp [State.valid, hnew]

/-- Nothing of the session, the reading and the fault flags that `s` has set is undone in `t`. -/
structure State.KeptIn (s t : State) : Prop where
  meas : s.meas = .measuring → t.meas = .measuring
  valid : s.valid = true → t.valid = true
  flags : (s.illop = true → t.illop = true) ∧ (s.pviol = true → t.pviol = true) ∧ (s.noval = true → t.noval = true)

theorem Effect.keptIn {i : Instr} {s t : State} (h : Effect i s t) : s.KeptIn t :=
  ⟨h.measuring_stays, h.valid_stays, h.flags_stay⟩

theorem State.keptIn_refuse (s : State) (f : FaultFlag) : s.KeptIn (s.refuse f) :=
  ⟨by simp, by simp [State.valid], by simp +contextual⟩

/-- Taking the host's input is no part of it. -/
theorem State.KeptIn.of_inputs {s t : State} {rest : List HostInput} (h : State.KeptIn { s with inputs := rest } t) :
    s.KeptIn t :=
  ⟨h.meas, h.valid, h.flags⟩

/-- Only reset undoes: every other step is an instruction, a refusal or no change at all. -/
theorem step_keptIn_or_reset {s t : State} (h : step s = .next t) :
    s.KeptIn t ∨ ∃ rest, s.inputs = .reset :: rest := by
  rcases step_cases h with ⟨-, rfl⟩ | ⟨rest, hi, -⟩ | ⟨p, rest, i, -, -, -, hexec⟩ | ⟨w, rest, -, -, -, rfl⟩
  · exact .inl ⟨id, id, id, id, id⟩
  · exact .inr ⟨rest, hi⟩
  · exact .inl (exec_effect hexec).keptIn.of_inputs
  · exact .inl (State.keptIn_refuse _ .illop).of_inputs

/-- Settles O9: the reset event's step is `applyReset` in every state, also while a call is pending
(`step_of_reset`), and a step that undoes something took a reset (`step_keptIn_or_reset`). -/
theorem resetEventGivesTheResetState : Obligations.ResetEventGivesTheResetState := by
  refine ⟨fun s rest hinputs => ⟨s.applyReset, step_of_reset hinputs, ?_⟩, fun s t h hundone => ?_⟩
  · simp [State.valid, hinputs]
  · obtain ⟨hmeas, hvalid, hillop, hpviol, hnoval⟩ | hreset := step_keptIn_or_reset h
    · rcases hundone with ⟨hs, ht⟩ | ⟨hs, ht⟩ | ⟨hs, ht⟩ | ⟨hs, ht⟩ | ⟨hs, ht⟩
      · simp [hmeas hs] at ht
      · simp [hvalid hs] at ht
      · simp [hillop hs] at ht
      · simp [hpviol hs] at ht
      · simp [hnoval hs] at ht
    · exact hreset

/-! ### Straight after reset -/

theorem exec_rd_status (s : State) : exec (.rd 0) s = .next (s.respond .success s.status) := rfl

/-- No state bit is set after reset, so STATUS reads 0 (R28, R35). -/
theorem State.reset_status : State.reset.status = 0 := by decide

/-- Settles O11: `RD 0` reads STATUS, which is 0 (`State.reset_status`), and `CRC.*` and `CNV.*` respond in every state;
`SES.START` answers as `sesStart_of_taken` and `sesStart_of_failed` say; reset leaves Idle without a reading, so
`SES.READ` and the other `RD` are refused (`sesRead_of_idle`, `exec_rd_of_no_reading`). -/
theorem operationsStraightAfterReset : Obligations.OperationsStraightAfterReset := by
  intro _ s
  have hstatus : s.status = 0 := State.reset_status
  refine ⟨rfl, by rw [exec_rd_status, hstatus]; rfl, fun b raw i hi => ?_, fun ok htx => ?_, ?_, fun n hn => ?_⟩
  · simp only [List.mem_cons, List.not_mem_nil, or_false] at hi
    rcases hi with rfl | rfl | rfl | rfl | rfl <;> exact ⟨_, _, rfl, rfl⟩
  · cases ok with
    | true => exact ⟨_, exec_sesStart_of_eq (sesStart_of_taken htx), rfl⟩
    | false => exact ⟨_, exec_sesStart_of_eq (sesStart_of_failed htx), rfl⟩
  · exact ⟨_, _, exec_sesRead_of_eq (sesRead_of_idle rfl), rfl, rfl, rfl⟩
  · exact ⟨_, _, exec_rd_of_no_reading rfl hn, rfl, rfl, rfl⟩

end Sys2Proof.Machine
end
